-- ==== Sys2Proof/Word.lean ====
section
/-! DEFINITION. The word types of the block: the byte, the bus address, the command word and the command code. -/

namespace Sys2Proof

/-- A MemValue and every byte of a bus exchange: `DATA_WIDTH` = 8 (00_scope.md R6). -/
abbrev Byte := BitVec 8

/-- A BusAddress: `ADDR_WIDTH` = 16 (00_scope.md R6). -/
abbrev Addr := BitVec 16

/-- A command word: 27 bits, the one format `CW` (30_encoding.md R60). -/
abbrev CmdWord := BitVec 27

/-- A command code, the `op` field of a command word (30_encoding.md R60, R62). -/
abbrev CmdCode := BitVec 3

/-- The nesting counter's width: `NC_WIDTH` = 8 (00_scope.md R6). -/
abbrev Count := BitVec 8

end Sys2Proof
end

