-- ==== Sys2Proof/Syntax.lean ====
section
/-! DEFINITION. The six commands: one constructor per row of spec/opcode_table.json. -/

namespace Sys2Proof

/-- A command of the block (00_scope.md R1, 30_encoding.md R62). Every command word carries an `addr` and a `data` field
(30_encoding.md R60). Acceptance stages both, used or not (R61), so every constructor carries both; a field the
command does not use is ignored by its meaning (R63), DESIGN CHOICE (log 21). `RECEIVE` is `exchange _ 0xFF` (R74) and has no constructor. -/
inductive Instr where
  /-- `ENTER`: no field used (40_critical_section.md R80). -/
  | enter (addr : Addr) (data : Byte)
  /-- `LEAVE`: no field used (40_critical_section.md R86). -/
  | leave (addr : Addr) (data : Byte)
  /-- `EXCHANGE data`: `addr` ignored (41_bus_transport.md R100). -/
  | exchange (addr : Addr) (data : Byte)
  /-- `INIT`: no field used (42_sram_device.md R116). -/
  | init (addr : Addr) (data : Byte)
  /-- `READ addr`: `data` ignored (42_sram_device.md R122). -/
  | read (addr : Addr) (data : Byte)
  /-- `WRITE addr, data` (42_sram_device.md R126). -/
  | write (addr : Addr) (data : Byte)
  deriving DecidableEq, Repr

/-- The `addr` field of the command's word. -/
def Instr.addr : Instr → Addr
  | .enter a _ | .leave a _ | .exchange a _ | .init a _ | .read a _ | .write a _ => a

/-- The `data` field of the command's word. -/
def Instr.data : Instr → Byte
  | .enter _ d | .leave _ d | .exchange _ d | .init _ d | .read _ d | .write _ d => d

end Sys2Proof
end

