-- ==== Sys2Proof/Decode.lean ====
section
/-! DEFINITION. The decoder, total on 27-bit words, rejecting by name; then the encoder, from the same table. -/

namespace Sys2Proof

/-- The `op` field, bits 26 to 24 (30_encoding.md R60). -/
def opField (w : CmdWord) : CmdCode := w.extractLsb' 24 3

/-- The `addr` field, bits 23 to 8 (30_encoding.md R60). -/
def addrField (w : CmdWord) : Addr := w.extractLsb' 8 16

/-- The `data` field, bits 7 to 0 (30_encoding.md R60). -/
def dataField (w : CmdWord) : Byte := w.extractLsb' 0 8

/-- Why a word is no command (30_encoding.md R65). -/
inductive Reserved where
  /-- The reserved code `000`. -/
  | code000
  /-- The reserved code `111`. -/
  | code111
  deriving DecidableEq, Repr

/-- The decoder's verdict on a word (30_encoding.md R62, R65). -/
inductive Verdict where
  | command (i : Instr)
  | invalid (r : Reserved)
  deriving DecidableEq, Repr

/-- The command of a word: the row whose code stands in the `op` field; the fields are taken whole, with no extension
and no scaling (30_encoding.md R61, R62, R65, R66). -/
def decode (w : CmdWord) : Verdict :=
  if opField w = 1 then .command (.enter (addrField w) (dataField w))
  else if opField w = 2 then .command (.leave (addrField w) (dataField w))
  else if opField w = 3 then .command (.exchange (addrField w) (dataField w))
  else if opField w = 4 then .command (.init (addrField w) (dataField w))
  else if opField w = 5 then .command (.read (addrField w) (dataField w))
  else if opField w = 6 then .command (.write (addrField w) (dataField w))
  else if opField w = 7 then .invalid .code111
  else .invalid .code000

/-- The command code of a command (30_encoding.md R62). -/
def Instr.code : Instr → CmdCode
  | .enter _ _ => 1
  | .leave _ _ => 2
  | .exchange _ _ => 3
  | .init _ _ => 4
  | .read _ _ => 5
  | .write _ _ => 6

/-- The word of a command: `op`, `addr` and `data` from the most significant bit down (30_encoding.md R60). -/
def encode (i : Instr) : CmdWord :=
  (i.code ++ i.addr ++ i.data : BitVec (3 + 16 + 8))

/-- The command of a verdict, if it is one. -/
def Verdict.toOption : Verdict → Option Instr
  | .command i => some i
  | .invalid _ => none

/-- The host's reading of the table: the command in a word numbered as spec/opcode_table.json numbers it. A number with a
bit above bit 26 cannot be presented on the 27-bit command port (30_encoding.md R60) and is no command, DEDUCED (log 10). -/
def decodeTableWord (_nbits w : Nat) : Option Instr :=
  if w < 2 ^ 27 then (decode (BitVec.ofNat 27 w)).toOption else none

end Sys2Proof
end

