-- ==== Sys2Proof/Config.lean ====
section
/-! DEFINITION. What an implementation fixes (the OPEN parameters of 00_scope.md R6) and the free values (the draws). -/

namespace Sys2Proof

/-- The OPEN parameters of 00_scope.md R6, as plain data. The machine state carries one `Config`, no step changes it, and a
statement about every state is a statement about every configuration: no rule of the model knows a default. -/
structure Config where
  /-- `OP_READ`, the fixed "read" op-code byte (30_encoding.md R67, R71). -/
  opRead : Byte
  /-- `OP_WRITE`, the fixed "write" op-code byte (30_encoding.md R68, R71). -/
  opWrite : Byte
  /-- `OP_EXT`, the reserved op-extension byte, "not derived from the address" (30_encoding.md R70). -/
  opExt : Byte
  /-- `INIT_B0`, the first fixed byte of INIT (30_encoding.md R69). -/
  initB0 : Byte
  /-- `INIT_B1`, the second fixed byte of INIT (30_encoding.md R69). -/
  initB1 : Byte
  /-- `INIT_CS_LOW`: does INIT assert chip-select around its exchanges (42_sram_device.md R117)? -/
  initCsLow : Bool
  /-- `INIT_KEEPS_MEM`: do the device's cells survive INIT (20_memory.md R55)? -/
  initKeepsMem : Bool
  /-- `IE_RESET`: IE after reset (10_state.md R20, R32). -/
  ieReset : Bool
  /-- `TICK_RESET`: TICK_EN after reset (10_state.md R21, R32). -/
  tickReset : Bool
  /-- `BUS_FAIR`: is every started transfer eventually completed (41_bus_transport.md R106)? -/
  busFair : Bool
  /-- Does a fair bus complete a transfer that was started before the bus was configured?
  93_implementation_defined.md U9: such a transfer "may never complete". DESIGN CHOICE (log 8): a parameter. -/
  unreadyCompletes : Bool
  /-- `HANDLERS`: the command lists an interrupt handler may run (60_exceptions.md R152). A handler that issues no
  command is always possible and is not listed. -/
  handlers : List (List CmdWord)
  deriving DecidableEq, Repr

/-- The defaults of 00_scope.md R6, used by `State.reset` alone. PRESUMED (log 1): the five bytes and `INIT_KEEPS_MEM`
are the spec's own "general knowledge". DESIGN CHOICE (log 2): `IE_RESET`, `TICK_RESET`, `BUS_FAIR`. -/
def Config.default : Config where
  opRead := 0x03
  opWrite := 0x02
  opExt := 0x00
  initB0 := 0x01
  initB1 := 0x00
  initCsLow := true
  initKeepsMem := true
  ieReset := false
  tickReset := false
  busFair := true
  unreadyCompletes := true
  handlers := []

/-- FREE VALUE: the byte of the `n`-th draw, a device reply that carries no data (20_memory.md R52 to R54). -/
opaque Config.freeByte : Nat → Byte

/-- FREE VALUE: the device's `KNOWN` bit after a frame of no specified meaning (93_implementation_defined.md U6). -/
opaque Config.freeBit : Nat → Bool

/-- FREE VALUE: what a cell holds that nothing has written since the `n`-th time the whole of `MEM` became unspecified
(20_memory.md R54, R55, 93_implementation_defined.md U12). The same cell of the same epoch reads the same twice. -/
opaque Config.freeCell : Nat → Addr → Byte

end Sys2Proof
end

