-- ==== Sys2Proof/Machine/State.lean ====
section
/-! DEFINITION. The machine's state as plain data, the reasons a step stops, and the state after reset. Every field that
the spec names cites its rule; the fields marked MODEL are the model's own and are named in the assumption log. -/

namespace Sys2Proof.Machine

/-- Who issued the running command (60_exceptions.md R150): mainline code or an interrupt handler. `N_CTX` = 2. -/
inductive Ctx where
  | main
  | irq
  deriving DecidableEq, Repr

/-- Which byte step X2 of an exchange sends (42_sram_device.md R116, R122, R126; 41_bus_transport.md R100). -/
inductive ByteSrc where
  | opRead | opWrite | opExt | initB0 | initB1
  /-- `ADDR[c][15:8]` -/
  | addrHi
  /-- `ADDR[c][7:0]` -/
  | addrLo
  /-- `WDATA[c]` -/
  | wdata
  /-- `0xFF` -/
  | sentinel
  deriving DecidableEq, Repr

/-- The micro-steps, each named by its label in the command files: E1 to E5 and L1 to L5 of the gate
(40_critical_section.md R80, R86), X2 to X4 of the exchange (41_bus_transport.md R100), and the steps of INIT, READ
and WRITE (42_sram_device.md R116, R122, R126) that are not an Enter, a Leave or an Exchange. -/
inductive Op where
  | e1 | e2 | e3 | e4 | e5
  | l1 | l2 | l3 | l4 | l5
  | x2 (b : ByteSrc)
  | x3 | x4
  /-- I1: `BusConfig()` -/
  | i1
  /-- I2, T7, W7: `CS_N <- 1` -/
  | csHigh
  /-- T1, W1: `CS_N <- 0` -/
  | csLow
  /-- I3: `if INIT_CS_LOW then CS_N <- 0` -/
  | i3
  /-- I6: `CS_N <- 1`, device `KNOWN <- 1` -/
  | i6
  /-- the end of T6: `RDATA[c] <-` the byte the exchange yielded -/
  | t6
  deriving DecidableEq, Repr

/-- One micro-step of a path: its label, and the number `k` of the transaction step Ik, Tk or Wk it belongs to (0 in a
top-level ENTER, LEAVE or EXCHANGE). `READ.T4/X3` is `⟨4, .x3⟩` while `CMD[c]` is READ (10_state.md R16). -/
structure Micro where
  stage : Nat
  op : Op
  deriving DecidableEq, Repr

/-- The registers that exist once per context (10_state.md R18), and the context's command port. -/
structure Bank where
  /-- `SNAP[c]` (10_state.md R15) -/
  snap : Bool
  /-- `PH[c]`: the micro-steps still to run, in order; its head is the one executed next, `[]` is `Idle` (10_state.md R16) -/
  ph : List Micro
  /-- `CMD[c]` (10_state.md R17) -/
  cmd : CmdCode
  /-- `ADDR[c]` (10_state.md R17) -/
  addr : Addr
  /-- `WDATA[c]` (10_state.md R17) -/
  wdata : Byte
  /-- `RDATA[c]` (10_state.md R17) -/
  rdata : Byte
  /-- `OUTB[c]` (10_state.md R17) -/
  outb : Byte
  /-- `INB[c]` (10_state.md R17) -/
  inb : Byte
  /-- MODEL (log 4): the command words the context has still to offer on the command port, next first (10_state.md R29) -/
  port : List CmdWord
  deriving DecidableEq, Repr

/-- The SRAM device (10_state.md R28, 20_memory.md R48). -/
structure Device where
  /-- `MEM`: the cells whose value is known, in canonical form (`Memory.wf`); any other cell reads
  `Config.freeCell epoch` (20_memory.md R48, 93_implementation_defined.md U12) -/
  mem : List Host.Cell
  /-- MODEL (log 5): which time `MEM` was last made unspecified as a whole (20_memory.md R54, R55) -/
  epoch : Nat
  /-- `FR`: the bytes received since chip-select fell (20_memory.md R48, R49) -/
  fr : List Byte
  /-- `KNOWN`: has an INIT put the chip in its known mode (20_memory.md R48, R55)? -/
  known : Bool
  /-- MODEL (log 6): the frame has left the three shapes the block sends (20_memory.md R54, 93_implementation_defined.md U6) -/
  frBad : Bool
  /-- MODEL (log 6): the context that sent the last byte the device received, read only while `FR` holds a byte
  (93_implementation_defined.md U6, "bytes of two contexts mixed in one frame") -/
  frOwner : Ctx
  deriving DecidableEq, Repr

/-- The two error kinds, told apart "structurally rather than by message text" (10_state.md R31, 60_exceptions.md R140). -/
inductive ErrorKind where
  | overflow
  | underflow
  deriving DecidableEq, Repr

/-- The events of 10_state.md R33. -/
inductive Event where
  /-- `IE(v)` -/
  | ie (v : Bool)
  /-- `NC(v)` -/
  | nc (v : Count)
  /-- `TICK(v)` -/
  | tick (v : Bool)
  /-- `CS(v)` -/
  | cs (v : Bool)
  /-- `CFG` -/
  | cfg
  /-- `TX(b)` -/
  | tx (b : Byte)
  /-- `RX(b)` -/
  | rx (b : Byte)
  /-- `ERR(k)`, on the recoverable-error port -/
  | err (k : ErrorKind)
  /-- `FATAL(k)`, on the fatal-error port -/
  | fatal (k : ErrorKind)
  /-- `IRQ_IN` -/
  | irqIn
  /-- `IRQ_OUT` -/
  | irqOut
  /-- `RET(c)` or `RET(c, v)` -/
  | ret (c : Ctx) (v : Option Byte)
  deriving DecidableEq, Repr

/-- One turn of an agent (10_state.md R10), or a liberty of the environment (70_reset_and_hazards.md R176). -/
inductive Move where
  /-- `seq`: the running context takes its next micro-step -/
  | seq
  /-- `intr`: the core enters a handler; `tick` says that it is the scheduler's tick handler, `cmds` are the words it will
  issue (60_exceptions.md R147, R150) -/
  | intr (tick : Bool) (cmds : List CmdWord)
  /-- `bus`: the peripheral completes the transfer in flight (41_bus_transport.md R106) -/
  | bus
  /-- `cfg`: the configuration collaborator runs on its own, before `INIT` (70_reset_and_hazards.md R173 (1)) -/
  | configure
  /-- other software writes `IE` between commands (70_reset_and_hazards.md R176) -/
  | ieWrite (v : Bool)
  /-- the scheduler writes `TICK_EN` (10_state.md R21, 70_reset_and_hazards.md R184), with no event, DESIGN CHOICE (log 24) -/
  | tickWrite (v : Bool)
  /-- power-up or the platform's reset (70_reset_and_hazards.md R170) -/
  | reset
  deriving DecidableEq, Repr

/-- Why a step stops with a fault. -/
inductive Fault where
  /-- Raised by any step while `HALT = 1` and no reset is to come: no context has a step (10_state.md R19,
  92_eei_decisions.md D13). Safe. -/
  | halted
  /-- Raised by a command offered to a context whose own command is in progress: no step exists
  (92_eei_decisions.md D26, 93_implementation_defined.md U18). Safe. -/
  | commandInProgress
  /-- Raised by step X2 when a transfer is in flight: the run is faulted from that write on (41_bus_transport.md R107,
  93_implementation_defined.md U5). Safe. -/
  | transferInFlight
  deriving DecidableEq, Repr

/-- Why a step is refused. -/
inductive Refusal where
  /-- Raised by exec's arm of an instruction that has no meaning in the model. Safe. No arm raises it. -/
  | notModelled (mnemonic : String)
  /-- Raised by the step that finds a word with command code `000` on the port (30_encoding.md R65,
  93_implementation_defined.md U8). Safe. -/
  | reservedCode000
  /-- Raised by the step that finds a word with command code `111` on the port (30_encoding.md R65,
  93_implementation_defined.md U8). Safe. -/
  | reservedCode111
  /-- Raised by every command in a configuration with `OP_READ = OP_WRITE` (20_memory.md R49,
  93_implementation_defined.md U14). Safe. -/
  | equalOpCodes
  deriving DecidableEq, Repr

/-- The state of the block, its boundary, its device and its environment (10_state.md R11). -/
structure State where
  /-- `NC`, the nesting counter (10_state.md R13) -/
  nc : Count
  /-- the bank of context `main` (10_state.md R18) -/
  main : Bank
  /-- the bank of context `irq` (10_state.md R18) -/
  irq : Bank
  /-- the running context (10_state.md R18, R32) -/
  ctx : Ctx
  /-- `HALT` (10_state.md R19) -/
  halt : Bool
  /-- `IE`, the global interrupt-enable flag (10_state.md R20) -/
  ie : Bool
  /-- `TICK_EN`, the scheduler's tick switch (10_state.md R21) -/
  tickEn : Bool
  /-- `CS_N`, the chip-select line, asserted when `false` (10_state.md R22) -/
  csN : Bool
  /-- `TXD`, the bus's output register (10_state.md R24) -/
  txd : Byte
  /-- `RXD`, the bus's input register (10_state.md R26) -/
  rxd : Byte
  /-- `XFER_DONE` (10_state.md R25) -/
  xferDone : Bool
  /-- `XFER_PENDING` (10_state.md R27) -/
  xferPending : Bool
  /-- `BUS_READY` (10_state.md R27) -/
  busReady : Bool
  /-- the SRAM device (10_state.md R28) -/
  dev : Device
  /-- `rsp_data`, the last response presented (30_encoding.md R64) -/
  rspData : Byte
  /-- the event trace, oldest first (10_state.md R33) -/
  trace : List Event
  /-- MODEL (log 6): the context whose `TXD` write started the last transfer -/
  txOwner : Ctx
  /-- MODEL (log 8): `BUS_READY` at that write (93_implementation_defined.md U9) -/
  txReady : Bool
  /-- MODEL (log 5): how many draws have been made -/
  draws : Nat
  /-- MODEL (log 3): the turns the agents will take, next first (10_state.md R10, R29) -/
  env : List Move
  /-- the parameters (00_scope.md R6); no step writes it -/
  cfg : Config
  deriving DecidableEq, Repr

/-- A bank after reset: `PH = Idle`; the registers the spec leaves unspecified hold zero, DESIGN CHOICE (log 7). -/
def Bank.reset : Bank where
  snap := false
  ph := []
  cmd := 0
  addr := 0
  wdata := 0
  rdata := 0
  outb := 0
  inb := 0
  port := []

/-- The device after reset: every cell unspecified, `FR` empty, `KNOWN = 0` (10_state.md R28, 70_reset_and_hazards.md R171). -/
def Device.reset : Device where
  mem := []
  epoch := 0
  fr := []
  known := false
  frBad := false
  frOwner := .main

/-- The machine right after reset under the parameters `c` (10_state.md R32). `SNAP`, the staging registers, `TXD`, `RXD`,
`XFER_DONE` and `rsp_data` have no reset value in the spec and hold zero, DESIGN CHOICE (log 7). -/
def State.resetWith (c : Config) : State where
  nc := 0
  main := Bank.reset
  irq := Bank.reset
  ctx := .main
  halt := false
  ie := c.ieReset
  tickEn := c.tickReset
  csN := true
  txd := 0
  rxd := 0
  xferDone := false
  xferPending := false
  busReady := false
  dev := Device.reset
  rspData := 0
  trace := []
  txOwner := .main
  txReady := false
  draws := 0
  env := []
  cfg := c

/-- The machine right after reset, with the default parameters (log 1, log 2), nothing on the command port and no
environment turn to come. -/
def State.reset : State := State.resetWith Config.default

end Sys2Proof.Machine
end

