-- ==== Sys2Proof/Machine/Memory.lean ====
section
/-! DEFINITION. The device's cells as a list of (address, byte) pairs in one canonical form: addresses strictly rising and
below 65536. An unlisted address has NO known byte, so no entry can equal what it reads as; what the device answers for it is
`Device.read`'s free value (log 5). -/

namespace Sys2Proof.Machine

/-- The byte listed for an address, if there is one. -/
def Memory.find : List Host.Cell → Nat → Option Byte
  | [], _ => none
  | (b, v) :: rest, a => if a = b then some v else Memory.find rest a

/-- The cells with `v` at address `a` and every other address as before (20_memory.md R48, `MemWrite`). -/
def Memory.write : List Host.Cell → Nat → Byte → List Host.Cell
  | [], a, v => [(a, v)]
  | (b, w) :: rest, a, v =>
    if a < b then (a, v) :: (b, w) :: rest
    else if a = b then (a, v) :: rest
    else (b, w) :: Memory.write rest a v

/-- Are all addresses at least `lo`, strictly rising, and below 65536 (20_memory.md R40)? -/
def Memory.risesFrom : Nat → List Host.Cell → Bool
  | _, [] => true
  | lo, (a, _) :: rest => lo ≤ a && a < 65536 && Memory.risesFrom (a + 1) rest

/-- The canonical form. -/
def Memory.wf (m : List Host.Cell) : Bool := Memory.risesFrom 0 m

end Sys2Proof.Machine
end

