-- ==== Sys2Proof/Machine/Device.lean ====
section
/-! DEFINITION. The SRAM device: what it does on a chip-select edge, on one exchanged byte, and at the end of an INIT
(20_memory.md R48 to R55). Every function that needs a draw takes the draw's number. -/

namespace Sys2Proof.Machine

/-- `MemRead(a, 1)` (20_memory.md R48). A cell nothing has written since `MEM` was last unspecified holds the free value of
its epoch, the same at every read (93_implementation_defined.md U12). -/
def Device.read (d : Device) (a : Addr) : Byte :=
  (Memory.find d.mem a.toNat).getD (Config.freeCell d.epoch a)

/-- `MemWrite(a, 1, v)` (20_memory.md R48). -/
def Device.write (d : Device) (a : Addr) (v : Byte) : Device :=
  { d with mem := Memory.write d.mem a.toNat v }

/-- "Every cell of `MEM` is unspecified (a fresh draw)" (20_memory.md R54, R55). -/
def Device.unspecify (d : Device) (n : Nat) : Device :=
  { d with mem := [], epoch := n + 1 }

/-- `CS_N` goes from 1 to 0: `FR <- []`, a new frame (20_memory.md R49). -/
def Device.csFall (d : Device) : Device :=
  { d with fr := [], frBad := false }

/-- The out byte `o` of context `c` is appended to `FR` (20_memory.md R49). -/
def Device.append (d : Device) (c : Ctx) (o : Byte) : Device :=
  { d with fr := d.fr ++ [o], frOwner := c }

/-- Do these bytes begin an INIT frame (30_encoding.md R69)? -/
def Device.beginsInit (p : Config) (fr : List Byte) : Bool :=
  fr.isPrefixOf [p.initB0, p.initB1]

/-- Do these bytes begin a read frame or a write frame (30_encoding.md R67, R68)? The address bytes and the fifth byte may
be anything: the device ignores a read frame's sentinel (20_memory.md R50). -/
def Device.beginsData (p : Config) : List Byte → Bool
  | [] => true
  | [o] => o == p.opRead || o == p.opWrite
  | o :: e :: rest => (o == p.opRead || o == p.opWrite) && e == p.opExt && decide (rest.length ≤ 3)

/-- Is this a whole frame of one of the three shapes (20_memory.md R54)? -/
def Device.wholeFrame (p : Config) (fr : List Byte) : Bool :=
  fr == [p.initB0, p.initB1] || (fr.length == 5 && Device.beginsData p fr)

/-- The op-code and the address of a frame whose header has been received: exactly four bytes, the second `OP_EXT`, the
third and fourth the address, high byte first (20_memory.md R50, R51). -/
def Device.header (p : Config) : List Byte → Option (Byte × Addr)
  | [o, e, h, l] => if e = p.opExt then some (o, h ++ l) else none
  | _ => none

/-- A frame of no specified meaning: `MEM` and `KNOWN` are any value from here on (20_memory.md R54,
93_implementation_defined.md U6). -/
def Device.corrupt (d : Device) (n : Nat) : Device :=
  { d.unspecify n with frBad := true, known := Config.freeBit n }

/-- `CS_N` goes from 0 to 1: the frame ends; one that is not a whole frame of one of the three shapes has no specified effect
(20_memory.md R49, R54). -/
def Device.csRise (d : Device) (p : Config) (n : Nat) : Device :=
  if d.frBad || !Device.wholeFrame p d.fr then d.corrupt n else d

/-- Does the byte `o`, sent by context `c` in a transfer started with `BUS_READY = ready`, take the frame out of the three
shapes (20_memory.md R54, 93_implementation_defined.md U6, U9)? The bytes of two contexts are mixed where `FR` holds a byte of the
other context; whose chip-select write opened the frame does not matter, as it does not in R50 and R51 (log 6). -/
def Device.spoils (d : Device) (p : Config) (ready : Bool) (c : Ctx) (o : Byte) : Bool :=
  d.frBad || !ready || (!d.fr.isEmpty && decide (c ≠ d.frOwner)) ||
    !(Device.beginsInit p (d.fr ++ [o]) || Device.beginsData p (d.fr ++ [o]))

/-- The device's state after one exchange with `CS_N = 0`, out byte `o`: it appends `o` to `FR` after it has computed its reply
from the `FR` before (20_memory.md R49); the fifth byte of a write frame is stored (R51); a data frame sent with `KNOWN = 0`,
and a frame of none of the three shapes, leave every cell unspecified (R54): carried on, not refused (log 6, log 9). -/
def Device.exchange (d : Device) (p : Config) (ready : Bool) (c : Ctx) (o : Byte) (n : Nat) : Device :=
  if d.spoils p ready c o then (d.corrupt n).append c o
  else if !d.known && !Device.beginsInit p (d.fr ++ [o]) then (d.unspecify n).append c o
  else match Device.header p d.fr with
    | some (op, a) => if op = p.opWrite then (d.write a o).append c o else d.append c o
    | none => d.append c o

/-- The device's reply to that exchange: the addressed cell at the fifth byte of a read frame (20_memory.md R50), a draw for
every other byte (R52, R54). -/
def Device.reply (d : Device) (p : Config) (ready : Bool) (c : Ctx) (o : Byte) (n : Nat) : Byte :=
  if d.spoils p ready c o || !d.known then Config.freeByte n
  else match Device.header p d.fr with
    | some (op, a) => if op = p.opRead then d.read a else Config.freeByte n
    | none => Config.freeByte n

/-- The end of an INIT, at its final chip-select write: `KNOWN <- 1`, and `MEM` a fresh draw unless `INIT_KEEPS_MEM`
(20_memory.md R55), also after a broken INIT frame, DESIGN CHOICE (log 22, unsafe). -/
def Device.initDone (d : Device) (p : Config) (n : Nat) : Device :=
  { (if p.initKeepsMem then d else d.unspecify n) with known := true }

end Sys2Proof.Machine
end

