-- ==== Sys2Proof/Machine/Flags.lean ====
section
/-! DEFINITION. The block has no condition codes and no status flags (10_state.md R31). What stands here are its switches
and its counter: one operation per port write, each recorded as one event even when the value does not change (00_scope.md
R8, 10_state.md R33), and the two per-context accesses to `SNAP`. -/

namespace Sys2Proof.Machine

/-- `Emit(e)` (00_scope.md R8, 10_state.md R33). -/
def State.emit (s : State) (e : Event) : State :=
  { s with trace := s.trace ++ [e] }

/-- The bank of context `c` (10_state.md R18). -/
def State.bank (s : State) : Ctx → Bank
  | .main => s.main
  | .irq => s.irq

/-- Write the bank of context `c` (10_state.md R18). -/
def State.setBank (s : State) : Ctx → Bank → State
  | .main, b => { s with main := b }
  | .irq, b => { s with irq := b }

/-- `IE <- v` by the block (10_state.md R20). -/
def State.writeIe (s : State) (v : Bool) : State :=
  { s with ie := v, trace := s.trace ++ [.ie v] }

/-- `NC <- v` (10_state.md R13). -/
def State.writeNc (s : State) (v : Count) : State :=
  { s with nc := v, trace := s.trace ++ [.nc v] }

/-- `TICK_EN <- v` by the block (10_state.md R21). -/
def State.writeTick (s : State) (v : Bool) : State :=
  { s with tickEn := v, trace := s.trace ++ [.tick v] }

/-- `SNAP[c] <- IE` (10_state.md R15). -/
def State.capture (s : State) (c : Ctx) : State :=
  s.setBank c { s.bank c with snap := s.ie }

/-- `IE <- SNAP[c]` (10_state.md R15). -/
def State.restore (s : State) (c : Ctx) : State :=
  s.writeIe (s.bank c).snap

end Sys2Proof.Machine
end

