-- ==== Sys2Proof/Machine/Operands.lean ====
section
/-! DEFINITION. The operand forms: how a command's staged fields and the parameters become the bytes a frame sends. -/

namespace Sys2Proof.Machine

/-- `addr[15:8]`, the address byte sent first (30_encoding.md R70). -/
def addrHighByte (a : Addr) : Byte := a.extractLsb' 8 8

/-- `addr[7:0]`, the address byte sent second (30_encoding.md R70). -/
def addrLowByte (a : Addr) : Byte := a.extractLsb' 0 8

/-- The sentinel, "all bits set" (30_encoding.md R72). -/
def sentinelByte : Byte := 0xFF

/-- The byte an exchange sends, from the parameters and the staging registers of the context (42_sram_device.md R121). -/
def ByteSrc.value (p : Config) (b : Bank) : ByteSrc → Byte
  | .opRead => p.opRead
  | .opWrite => p.opWrite
  | .opExt => p.opExt
  | .initB0 => p.initB0
  | .initB1 => p.initB1
  | .addrHi => addrHighByte b.addr
  | .addrLo => addrLowByte b.addr
  | .wdata => b.wdata
  | .sentinel => sentinelByte

end Sys2Proof.Machine
end

