-- ==== Sys2Proof/Machine/Paths.lean ====
section
/-! DEFINITION. The six commands as ordered lists of micro-steps (10_state.md R16), and the transaction state of a phase
(42_sram_device.md R131). `k` is the number of the transaction step a micro-step belongs to. -/

namespace Sys2Proof.Machine

/-- `Enter()`: E1 to E5 (40_critical_section.md R80). -/
def enterSteps (k : Nat) : List Micro :=
  [⟨k, .e1⟩, ⟨k, .e2⟩, ⟨k, .e3⟩, ⟨k, .e4⟩, ⟨k, .e5⟩]

/-- `Leave()`: L1 to L5 (40_critical_section.md R86). -/
def leaveSteps (k : Nat) : List Micro :=
  [⟨k, .l1⟩, ⟨k, .l2⟩, ⟨k, .l3⟩, ⟨k, .l4⟩, ⟨k, .l5⟩]

/-- `Exchange(b)`: X1 to X5 (41_bus_transport.md R100). -/
def exchangeSteps (k : Nat) (b : ByteSrc) : List Micro :=
  enterSteps k ++ [⟨k, .x2 b⟩, ⟨k, .x3⟩, ⟨k, .x4⟩] ++ leaveSteps k

/-- ENTER (40_critical_section.md R80). -/
def enterPath : List Micro := enterSteps 0

/-- LEAVE (40_critical_section.md R86). -/
def leavePath : List Micro := leaveSteps 0

/-- EXCHANGE: the byte of a top-level command is `WDATA[c]` (41_bus_transport.md R100). -/
def exchangePath : List Micro := exchangeSteps 0 .wdata

/-- INIT, I0 to I7 (42_sram_device.md R116). -/
def initPath : List Micro :=
  enterSteps 0 ++ [⟨1, .i1⟩, ⟨2, .csHigh⟩, ⟨3, .i3⟩] ++ exchangeSteps 4 .initB0 ++ exchangeSteps 5 .initB1 ++
    [⟨6, .i6⟩] ++ leaveSteps 7

/-- READ, T0 to T8 (42_sram_device.md R122). -/
def readPath : List Micro :=
  enterSteps 0 ++ [⟨1, .csLow⟩] ++ exchangeSteps 2 .opRead ++ exchangeSteps 3 .opExt ++ exchangeSteps 4 .addrHi ++
    exchangeSteps 5 .addrLo ++ exchangeSteps 6 .sentinel ++ [⟨6, .t6⟩, ⟨7, .csHigh⟩] ++ leaveSteps 8

/-- WRITE, W0 to W8 (42_sram_device.md R126). -/
def writePath : List Micro :=
  enterSteps 0 ++ [⟨1, .csLow⟩] ++ exchangeSteps 2 .opWrite ++ exchangeSteps 3 .opExt ++ exchangeSteps 4 .addrHi ++
    exchangeSteps 5 .addrLo ++ exchangeSteps 6 .wdata ++ [⟨7, .csHigh⟩] ++ leaveSteps 8

/-- The micro-steps of a command. -/
def commandPath : Instr → List Micro
  | .enter _ _ => enterPath
  | .leave _ _ => leavePath
  | .exchange _ _ => exchangePath
  | .init _ _ => initPath
  | .read _ _ => readPath
  | .write _ _ => writePath

/-- The states of the document's transaction machine, with the sub-states of 42_sram_device.md R131. -/
inductive TxState where
  | idle
  | selectAsserted
  | opcodeSent
  /-- sub-state of `OpcodeSent` -/
  | extSent
  /-- `AddressSent` in progress, 1 of 2 bytes -/
  | addrHiSent
  | addressSent
  | dataTransferred
  | selectDeasserted
  deriving DecidableEq, Repr

/-- `TS` of a READ or WRITE whose next micro-step belongs to step Tk or Wk (42_sram_device.md R131). -/
def TxState.ofDataStage : Nat → TxState
  | 2 => .selectAsserted
  | 3 => .opcodeSent
  | 4 => .extSent
  | 5 => .addrHiSent
  | 6 => .addressSent
  | 7 => .dataTransferred
  | 8 => .selectDeasserted
  | _ => .idle

/-- `TS` of an INIT whose next micro-step belongs to step Ik (42_sram_device.md R131). R131 gives no state after I0 to I2 have
ended, nor after I3 with `INIT_CS_LOW` false: the model keeps `Idle` there, since no step has asserted the line, DESIGN CHOICE
(log 23, unsafe). -/
def TxState.ofInitStage (csLow : Bool) : Nat → TxState
  | 4 => if csLow then .selectAsserted else .idle
  | 5 => .opcodeSent
  | 6 => .dataTransferred
  | 7 => .selectDeasserted
  | _ => .idle

/-- `TS` as the function of `CMD` and `PH` that 10_state.md R16 and 42_sram_device.md R131 make it. The data step T6 of READ
has ended when its last micro-step `t6` has run. -/
def Bank.txState (p : Config) (b : Bank) : TxState :=
  match b.ph with
  | [] => .idle
  | m :: _ =>
    if b.cmd = 5 ∨ b.cmd = 6 then TxState.ofDataStage m.stage
    else if b.cmd = 4 then TxState.ofInitStage p.initCsLow m.stage
    else .idle

end Sys2Proof.Machine
end

