-- ==== Sys2Proof/WellFormed.lean ====
section
/-! DEFINITION. The checks on syntax and configuration that a type does not make: the canonical spelling of a command
word, and a configuration whose read and write frames can be told apart. -/

namespace Sys2Proof

/-- The canonical encoding of 30_encoding.md R63: zeros in every field the command does not use. Operand ranges need no
check, their widths are the fields' own (R61). A word that is not canonical is still a command and does the same thing
(R63): every statement of the model is made for all commands, this check only names the spelling the spec prints. -/
def Instr.canonical : Instr → Bool
  | .enter a d | .leave a d | .init a d => a == 0 && d == 0
  | .exchange a _ => a == 0
  | .read _ d => d == 0
  | .write _ _ => true

/-- The side condition of 20_memory.md R49: the device tells a read frame from a write frame by its first byte. -/
def Config.wellFormed (c : Config) : Bool :=
  c.opRead != c.opWrite

end Sys2Proof
end

