-- ==== Sys2Proof/Machine/Ops.lean ====
section
/-! DEFINITION. The named operations: the block's two errors, handler entry and return, the chip-select and bus registers, the
sequencer's micro-steps, command acceptance, the agents' turns, and the running of an activation to its end. -/

namespace Sys2Proof.Machine

/-- The outcome of a step of this machine. -/
abbrev Result := Host.Outcome State Fault Refusal

/-- The state of a `next` outcome. -/
def Result.state? : Result → Option State
  | .next s => some s
  | .fault _ => none
  | .refused _ => none

/-- Go on from a `next` outcome; a fault or a refusal stands. -/
def Result.andThen (r : Result) (f : State → Result) : Result :=
  match r with
  | .next s => f s
  | .fault e => .fault e
  | .refused e => .refused e

/-! ### The block's errors -/

/-- The numeric code of an error (60_exceptions.md R143). -/
def ErrorKind.code : ErrorKind → Nat
  | .overflow => 1
  | .underflow => 2

/-- The message of an error (40_critical_section.md R83, R88). -/
def ErrorKind.message : ErrorKind → String
  | .overflow => "too many nested critical sections"
  | .underflow => "unbalanced leave"

/-- Taking one of the block's two exceptions: `raise Overflow` is the event on the fatal port and then `HALT <- 1`
(60_exceptions.md R141), `raise Underflow` is the event on the error port and nothing else (R142). Neither saves state,
vectors or changes a mask (R155). Overflow is a next state, DEDUCED (log 11). -/
def State.raise (s : State) : ErrorKind → State
  | .overflow => { s.emit (.fatal .overflow) with halt := true }
  | .underflow => s.emit (.err .underflow)

/-! ### Handler entry and return -/

/-- May the core enter a handler now (60_exceptions.md R147, R153)? The handler's command list is empty or in `HANDLERS`
(R152). -/
def State.mayInterrupt (s : State) (tick : Bool) (cmds : List CmdWord) : Bool :=
  !s.halt && decide (s.ctx = .main) && s.ie && (!tick || s.tickEn) &&
    (decide (cmds = []) || decide (cmds ∈ s.cfg.handlers))

/-- Handler entry (60_exceptions.md R150): `main` is suspended as it is, the running context becomes `irq`, `IE <- 0` by the
core (no `IE` event: it is no write of the block), `PH[irq] = Idle`, event `IRQ_IN`. -/
def State.enterHandler (s : State) (cmds : List CmdWord) : State :=
  { s with ctx := .irq, ie := false, irq := { s.irq with ph := [], port := cmds }, trace := s.trace ++ [.irqIn] }

/-- Handler return (60_exceptions.md R151): `IE <- 1` by the core, the running context becomes `main`, event `IRQ_OUT`;
nothing else is restored, whatever the handler did, DEDUCED (log 18). -/
def State.leaveHandler (s : State) : State :=
  { s with ctx := .main, ie := true, trace := s.trace ++ [.irqOut] }

/-! ### Reset -/

/-- Reset at any moment (70_reset_and_hazards.md R170 to R172): every piece of state takes its reset value and the trace
restarts empty. What is no state of the block stays: the parameters, the words mainline code has still to offer, the
environment's turns to come and the count of draws, DESIGN CHOICE (log 19); every cell of `MEM` is a fresh draw (R171). -/
def State.resetNow (s : State) : State :=
  { State.resetWith s.cfg with
    main := { Bank.reset with port := s.main.port }
    dev := { Device.reset with epoch := s.draws + 1 }
    draws := s.draws + 1
    env := s.env }

/-! ### Chip-select and the bus registers -/

/-- `CS_N <- v` (10_state.md R22), with the device's reaction to an edge (20_memory.md R49). -/
def State.writeCs (s : State) (v : Bool) : State :=
  let s' := { s with csN := v, trace := s.trace ++ [.cs v] }
  if s.csN && !v then { s' with dev := s.dev.csFall }
  else if !s.csN && v then { s' with dev := s.dev.csRise s.cfg s.draws, draws := s.draws + 1 }
  else s'

/-- `BusConfig()`: event `CFG`, `BUS_READY <- 1` (42_sram_device.md R118). -/
def State.busConfig (s : State) : State :=
  { s with busReady := true, trace := s.trace ++ [.cfg] }

/-- Step X2: `OUTB[c] <- v; TXD <- OUTB[c]`, which clears `XFER_DONE` and sets `XFER_PENDING` (41_bus_transport.md R100,
10_state.md R24, R27). -/
def State.startTransfer (s : State) (c : Ctx) (v : Byte) : State :=
  { s.setBank c { s.bank c with outb := v } with
    txd := v
    xferDone := false
    xferPending := true
    txOwner := c
    txReady := s.busReady
    trace := s.trace ++ [.tx v] }

/-- The `bus` agent's completion (41_bus_transport.md R106): the device answers the byte in `TXD` under the present `CS_N`, then
`RXD <- r`, `XFER_DONE <- 1`, `XFER_PENDING <- 0`. With `CS_N = 1` the device is not reached and the reply is a draw
(20_memory.md R53). -/
def State.completeTransfer (s : State) : State :=
  { s with
    rxd := if s.csN then Config.freeByte s.draws
      else s.dev.reply s.cfg s.txReady s.txOwner s.txd s.draws
    dev := if s.csN then s.dev else s.dev.exchange s.cfg s.txReady s.txOwner s.txd s.draws
    xferDone := true
    xferPending := false
    draws := s.draws + 1 }

/-- Step X4: `INB[c] <- RXD`, one read of `RXD` (41_bus_transport.md R104). -/
def State.receive (s : State) (c : Ctx) : State :=
  { s.setBank c { s.bank c with inb := s.rxd } with trace := s.trace ++ [.rx s.rxd] }

/-- Step I6: `CS_N <- 1`, and the device's `KNOWN <- 1` (42_sram_device.md R116, 20_memory.md R55). The rise comes first, so an
INIT whose own frame a handler's byte broke still ends with `KNOWN = 1`, where 93_implementation_defined.md U6 would leave it any
value, DESIGN CHOICE (log 22, unsafe). -/
def State.endInit (s : State) : State :=
  let s' := s.writeCs true
  { s' with dev := s'.dev.initDone s'.cfg s'.draws, draws := s'.draws + 1 }

/-! ### The sequencer -/

/-- `ph <- rest` (00_scope.md R8). -/
def State.setPh (s : State) (c : Ctx) (rest : List Micro) : State :=
  s.setBank c { s.bank c with ph := rest }

/-- The result byte of the command in context `c` (30_encoding.md R64): `INB` for EXCHANGE, `RDATA` for READ, none otherwise. -/
def Bank.result (b : Bank) : Option Byte :=
  if b.cmd = 3 then some b.inb else if b.cmd = 5 then some b.rdata else none

/-- Completion of the command in context `c`: `ph <- Idle`, event `RET`, the response on `rsp_data`, `0x00` where it carries
no information (30_encoding.md R64, 10_state.md R33), DEDUCED (log 20). It belongs to the last micro-step, DESIGN CHOICE (log 15). -/
def State.finish (s : State) (c : Ctx) : State :=
  { s.setPh c [] with
    rspData := (s.bank c).result.getD 0
    trace := s.trace ++ [.ret c (s.bank c).result] }

/-- Go to the micro-steps that are left; a path with none left has completed (10_state.md R16). -/
def State.advance (s : State) (c : Ctx) : List Micro → State
  | [] => s.finish c
  | m :: rest => s.setPh c (m :: rest)

/-- The path after a LEAVE's failed decrement: L4 belongs to the other branch of L3 (40_critical_section.md R86, R88). -/
def afterUnderflow : List Micro → List Micro
  | [] => []
  | m :: rest => if m.op = .l4 then rest else m :: rest

/-- What a micro-step of context `c` writes on its ordinary way (40_critical_section.md R80, R86; 41_bus_transport.md R100;
42_sram_device.md R116, R122, R126). -/
def effect (c : Ctx) (s : State) : Op → State
  | .e1 | .l1 => s.capture c
  | .e2 | .l2 => s.writeIe false
  | .e3 => s.writeNc (s.nc + 1)
  | .e4 => if s.nc = 1 then s.writeTick false else s
  | .l3 => s.writeNc (s.nc - 1)
  | .l4 => if s.nc = 0 then s.writeTick true else s
  | .e5 | .l5 => s.restore c
  | .x2 b => s.startTransfer c (b.value s.cfg (s.bank c))
  | .x3 => s
  | .x4 => s.receive c
  | .i1 => s.busConfig
  | .csHigh => s.writeCs true
  | .csLow => s.writeCs false
  | .i3 => if s.cfg.initCsLow then s.writeCs false else s
  | .i6 => s.endInit
  | .t6 => s.setBank c { s.bank c with rdata := (s.bank c).inb }

/-- Does a micro-step go its ordinary way? E3 needs `NC < 255` and L3 needs `NC > 0` (40_critical_section.md R80, R86), X2 needs
a bus with no transfer in flight (41_bus_transport.md R107), X3 needs `XFER_DONE` (R103). -/
def State.ordinary (s : State) : Op → Bool
  | .e3 => decide (s.nc.toNat < 255)
  | .l3 => decide (0 < s.nc.toNat)
  | .x2 _ => !s.xferPending
  | .x3 => s.xferDone
  | .e1 | .e2 | .e4 | .e5 | .l1 | .l2 | .l4 | .l5 | .x4 | .i1 | .csHigh | .csLow | .i3 | .i6 | .t6 => true

/-- What a micro-step does when it does not go its ordinary way: Overflow halts at E3 (40_critical_section.md R83), Underflow is
raised at L3 and the LEAVE continues at L5 (R88), a `TXD` write over a transfer in flight is a fault (41_bus_transport.md
R107, DEDUCED, log 13), and the busy-wait holds (R103, DESIGN CHOICE, log 12). No other micro-step has another way. -/
def otherWay (c : Ctx) (rest : List Micro) (s : State) : Op → Result
  | .e3 => .next (s.raise .overflow)
  | .l3 => .next ((s.raise .underflow).advance c (afterUnderflow rest))
  | .x2 _ => .fault .transferInFlight
  | .x3 => .next s
  | .e1 | .e2 | .e4 | .e5 | .l1 | .l2 | .l4 | .l5 | .x4 | .i1 | .csHigh | .csLow | .i3 | .i6 | .t6 => .next s

/-- One micro-step of context `c`, `rest` the path after it. -/
def runOp (c : Ctx) (o : Op) (rest : List Micro) (s : State) : Result :=
  if s.ordinary o then .next ((effect c s o).advance c rest) else otherWay c rest s o

/-- Acceptance of a command by the running context (30_encoding.md R61, 70_reset_and_hazards.md R176): its code and both fields
are staged, and the phase becomes its first micro-step. A halted block and a busy context accept nothing
(92_eei_decisions.md D26, DEDUCED, log 11); a configuration with equal op-codes is refused (20_memory.md R49, DEDUCED,
log 14). -/
def accept (i : Instr) (path : List Micro) (s : State) : Result :=
  if s.halt then .fault .halted
  else if (s.bank s.ctx).ph ≠ [] then .fault .commandInProgress
  else if !s.cfg.wellFormed then .refused .equalOpCodes
  else .next (s.setBank s.ctx
    { s.bank s.ctx with cmd := i.code, addr := i.addr, wdata := i.data, ph := path })

/-- The refusal of a reserved code (30_encoding.md R65), DEDUCED (log 10). -/
def reservedRefusal : Reserved → Refusal
  | .code000 => .reservedCode000
  | .code111 => .reservedCode111

/-- The next word leaves the running context's command port. -/
def State.takeWord (s : State) : State :=
  s.setBank s.ctx { s.bank s.ctx with port := (s.bank s.ctx).port.tail }

/-- The running context's turn. In a command it takes the next micro-step; `Idle` it accepts the next word of its port; an
idle handler with no word left returns (60_exceptions.md R151); idle mainline code with no word left does nothing
(70_reset_and_hazards.md R172). -/
def seqTurn (s : State) : Result :=
  match (s.bank s.ctx).ph with
  | m :: rest => runOp s.ctx m.op rest s
  | [] =>
    match (s.bank s.ctx).port with
    | w :: _ =>
      match decode w with
      | .command i => accept i (commandPath i) s.takeWord
      | .invalid r => .refused (reservedRefusal r)
    | [] => if s.ctx = .irq then .next s.leaveHandler else .next s

/-! ### The agents -/

/-- Is the running context held at X3 (41_bus_transport.md R103)? -/
def State.waiting (s : State) : Bool :=
  !s.xferDone && decide (((s.bank s.ctx).ph.head?.map Micro.op) = some .x3)

/-- Will the bus complete the transfer in flight of its own accord (41_bus_transport.md R106, `BUS_FAIR`;
93_implementation_defined.md U9, DESIGN CHOICE, log 8)? -/
def State.busWillComplete (s : State) : Bool :=
  s.xferPending && s.cfg.busFair && (s.txReady || s.cfg.unreadyCompletes)

/-- The turn of the agent that `m` names. An agent whose step is not possible now has no step: its turn passes with no effect
(10_state.md R10, 60_exceptions.md R147, 41_bus_transport.md R106, 70_reset_and_hazards.md R176), DESIGN CHOICE (log 17). The
scheduler's own write of `TICK_EN` appends no `TICK` event, DESIGN CHOICE (log 24, unsafe). -/
def agentTurn (m : Move) (s : State) : Result :=
  match m with
  | .seq => if s.halt then .next s else seqTurn s
  | .intr tick cmds => .next (if s.mayInterrupt tick cmds then s.enterHandler cmds else s)
  | .bus => .next (if s.xferPending then s.completeTransfer else s)
  | .configure => .next { s with busReady := true }
  | .ieWrite v =>
    .next (if !s.halt && decide (s.ctx = .main) && decide (s.main.ph = []) then { s with ie := v } else s)
  | .tickWrite v => .next { s with tickEn := v }
  | .reset => .next s.resetNow

/-- One turn of one agent: the agent the environment's list names, or, with the list used up, the running context, but the bus
where the context is held and a fair bus has a transfer to complete, DESIGN CHOICE (log 3). A halted block with no turn to come has no
step. -/
def turn (s : State) : Result :=
  match s.env with
  | m :: rest => agentTurn m { s with env := rest }
  | [] =>
    if s.halt then .fault .halted
    else if s.waiting && s.busWillComplete then .next s.completeTransfer
    else seqTurn s

/-- Is the context held for ever, with no agent to lift the hold: the bus hang of 41_bus_transport.md R103? -/
def State.hung (s : State) : Bool :=
  decide (s.env = []) && s.waiting && !s.busWillComplete

/-- Has the activation in context `c` nothing more to run: completed, halted by Overflow, or hung? -/
def State.settled (s : State) (c : Ctx) : Bool :=
  s.halt || decide ((s.bank c).ph = []) || s.hung

/-- Turns of the agents, at most `n`, until the activation in context `c` is settled. -/
def drive : Nat → Ctx → State → Result
  | 0, _, s => .next s
  | n + 1, c, s => if s.settled c then .next s else (turn s).andThen (drive n c)

/-- How many turns an environment's move can lead to: its own, and those of the commands a handler issues. -/
def Move.work : Move → Nat
  | .intr _ cmds => 2 + 160 * cmds.length
  | .seq | .bus | .configure | .ieWrite _ | .tickWrite _ | .reset => 1

/-- A bound on the turns that are left until the machine settles: two for each micro-step to run, 160 for each command a
handler has still to issue, and those of the environment's list. -/
def State.work (s : State) : Nat :=
  (s.env.map Move.work).sum + 2 * s.main.ph.length + 2 * s.irq.ph.length + 160 * s.irq.port.length +
    (if s.ctx = .irq then 1 else 0) + (if s.xferPending then 1 else 0)

/-- Run the activation of the running context until it is settled. -/
def resume (s : State) : Result := drive s.work s.ctx s

/-- A command from acceptance to its end (00_scope.md R2, DESIGN CHOICE, log 16): the meaning of every command is this
operation on its own path. -/
def runCommand (i : Instr) (path : List Micro) (s : State) : Result :=
  (accept i path s).andThen resume

/-! ### Fetching a command -/

/-- Is it the running context's turn, and is it idle and able to accept? -/
def State.mayFetch (s : State) : Bool :=
  !s.halt && decide ((s.bank s.ctx).ph = []) &&
    (decide (s.env = []) || decide (s.env.head? = some .seq))

/-- The word the running context offers now, with the state in which its command starts: the word has left the port and the
turn, if the list named it, is used. -/
def State.fetch (s : State) : Option (CmdWord × State) :=
  if s.mayFetch then
    match (s.bank s.ctx).port with
    | w :: _ => some (w, { s.takeWord with env := s.env.tail })
    | [] => none
  else none

/-- A step with no command to fetch: the activation in progress goes on, or one agent takes its turn. A halted block takes
one turn of the environment's list at a time, for only a reset can lift the halt (10_state.md R19). -/
def otherTurn (s : State) : Result :=
  if s.halt || decide ((s.bank s.ctx).ph = []) then turn s else resume s

end Sys2Proof.Machine
end

