-- ==== Sys2Proof/Machine/Gate.lean ====
section
/-! DEFINITION. The CriticalSection gate's commands: ENTER and LEAVE. -/

namespace Sys2Proof.Machine

/-- `ENTER` (40_critical_section.md R80 to R85): E1 to E5; its operand fields are staged and never read. -/
def execEnter (addr : Addr) (data : Byte) (s : State) : Result :=
  runCommand (.enter addr data) enterPath s

/-- `LEAVE` (40_critical_section.md R86 to R89): L1 to L5; its operand fields are staged and never read. -/
def execLeave (addr : Addr) (data : Byte) (s : State) : Result :=
  runCommand (.leave addr data) leavePath s

end Sys2Proof.Machine
end

