-- ==== Sys2Proof/Machine/Sram.lean ====
section
/-! DEFINITION. The SramDevice transaction sequencer's commands: INIT, READ and WRITE. -/

namespace Sys2Proof.Machine

/-- `INIT` (42_sram_device.md R116 to R119): I0 to I7; its operand fields are staged and never read. -/
def execInit (addr : Addr) (data : Byte) (s : State) : Result :=
  runCommand (.init addr data) initPath s

/-- `READ addr` (42_sram_device.md R122 to R125): T0 to T8; the `data` field is staged and never read. -/
def execRead (addr : Addr) (data : Byte) (s : State) : Result :=
  runCommand (.read addr data) readPath s

/-- `WRITE addr, data` (42_sram_device.md R126 to R129): W0 to W8. -/
def execWrite (addr : Addr) (data : Byte) (s : State) : Result :=
  runCommand (.write addr data) writePath s

end Sys2Proof.Machine
end

