-- ==== Sys2Proof/Machine/Transport.lean ====
section
/-! DEFINITION. The BusTransport sequencer's command: EXCHANGE (`RECEIVE` is EXCHANGE of the sentinel). -/

namespace Sys2Proof.Machine

/-- `EXCHANGE data` (41_bus_transport.md R100 to R111): X1 to X5 with the byte `WDATA[c]`. -/
def execExchange (addr : Addr) (data : Byte) (s : State) : Result :=
  runCommand (.exchange addr data) exchangePath s

end Sys2Proof.Machine
end

