-- ==== Sys2Proof/Machine/Dispatch.lean ====
section
/-! DEFINITION. One arm per command: the command a context issues, run from acceptance to its end. -/

namespace Sys2Proof.Machine

def exec (i : Instr) (s : State) : Host.Outcome State Fault Refusal :=
  match i with
  | .enter addr data => Sys2Proof.Machine.execEnter addr data s
  | .leave addr data => Sys2Proof.Machine.execLeave addr data s
  | .exchange addr data => Sys2Proof.Machine.execExchange addr data s
  | .init addr data => Sys2Proof.Machine.execInit addr data s
  | .read addr data => Sys2Proof.Machine.execRead addr data s
  | .write addr data => Sys2Proof.Machine.execWrite addr data s

end Sys2Proof.Machine
end

