-- ==== Sys2Proof/Machine/Step.lean ====
section
/-! DEFINITION. One step of the machine, and where a command word stands for the next step to find it. -/

namespace Sys2Proof.Machine

/-- One step. An idle context whose turn it is offers its next word, and the step runs that command to its end; a reserved
code is refused (30_encoding.md R65). Otherwise the activation in progress goes on, or one agent takes its turn. -/
def step (s : State) : Host.Outcome State Fault Refusal :=
  match s.fetch with
  | some (w, s') =>
    match decode w with
    | .command i => exec i s'
    | .invalid r => .refused (reservedRefusal r)
  | none => otherTurn s

/-- `s` with the word `w` next on the running context's command port, where `step` takes its next command from. The port is
27 bits wide (30_encoding.md R60): a bit above bit 26 has no line to stand on. The words are loaded from outside, and this stands
for the load, DESIGN CHOICE (log 4). -/
def State.withFetchWord (s : State) (_nbits w : Nat) : State :=
  s.setBank s.ctx { s.bank s.ctx with port := BitVec.ofNat 27 w :: (s.bank s.ctx).port }

end Sys2Proof.Machine
end

