-- ==== Sys2Proof/Safety.lean ====
section
/-! DEFINITION. The terms that claims use: the launch premises of 70_reset_and_hazards.md R175, the end of a run (R177), the
events a unit of the block emits, and the invariants of the machine. -/

namespace Sys2Proof.Machine

/-! ### Launch premises -/

/-- The running context is idle in a running block, no other agent has a turn to come, and the parameters are legal: what a
statement about one command run alone assumes (70_reset_and_hazards.md R175 (a), (c), (i)). -/
structure State.Quiet (s : State) : Prop where
  env : s.env = []
  halt : s.halt = false
  idle : (s.bank s.ctx).ph = []
  cfg : s.cfg.opRead ≠ s.cfg.opWrite

/-- The bus is configured and idle, and completes every transfer (70_reset_and_hazards.md R175 (e), (f); `BUS_FAIR`,
41_bus_transport.md R106). -/
structure State.BusUp (s : State) : Prop where
  fair : s.cfg.busFair = true
  ready : s.busReady = true
  idle : s.xferPending = false

/-- A run of a program ends well here (70_reset_and_hazards.md R177). -/
def State.EndsWell (s : State) : Prop :=
  s.main.ph = [] ∧ s.irq.ph = [] ∧ s.ctx = .main ∧ s.halt = false ∧ s.xferPending = false ∧ s.main.port = []

/-! ### The events of the units -/

/-- The events of a completing ENTER that finds `NC = n` and `IE = i` (40_critical_section.md R85). -/
def enterEvents (n : Count) (i : Bool) : List Event :=
  [.ie false, .nc (n + 1)] ++ (if n = 0 then [.tick false] else []) ++ [.ie i]

/-- The events of a LEAVE that finds `NC = n` and `IE = i` (40_critical_section.md R89). -/
def leaveEvents (n : Count) (i : Bool) : List Event :=
  [.ie false] ++
    (if n = 0 then [.err .underflow] else [.nc (n - 1)] ++ (if n = 1 then [.tick true] else [])) ++ [.ie i]

/-- The events of an exchange that finds `NC = n` and `IE = i`, sends `b` and receives `r` (41_bus_transport.md R100). -/
def exchangeEvents (n : Count) (i : Bool) (b r : Byte) : List Event :=
  enterEvents n i ++ [.tx b, .rx r] ++ leaveEvents (n + 1) i

/-- The byte an exchange of `v` by context `c`, started now, receives: with `CS_N = 1` a draw, else the device's reply
(41_bus_transport.md R106, 20_memory.md R50 to R53). -/
def State.exchangeReply (s : State) (c : Ctx) (v : Byte) : Byte :=
  if s.csN then Config.freeByte s.draws else s.dev.reply s.cfg s.busReady c v s.draws

/-- The first byte that a transaction sends begins a frame: the line is deasserted, or it is asserted and the frame has no byte
yet, whichever context asserted it (20_memory.md R49). -/
def State.FrameFresh (s : State) : Prop :=
  s.csN = true ∨ (s.dev.fr = [] ∧ s.dev.frBad = false)

/-- The device after that exchange (20_memory.md R49 to R54). -/
def State.exchangeDevice (s : State) (c : Ctx) (v : Byte) : Device :=
  if s.csN then s.dev else s.dev.exchange s.cfg s.busReady c v s.draws

/-- The events of a transaction that finds `NC = n` and `IE = i`: its own ENTER, the middle part, its own LEAVE and its `RET`
(42_sram_device.md R115). -/
def transactionEvents (n : Count) (i : Bool) (middle : List Event) (c : Ctx) (v : Option Byte) : List Event :=
  enterEvents n i ++ middle ++ leaveEvents (n + 1) i ++ [.ret c v]

/-- The events of the exchanges of a frame, given the bytes sent and received, at the depth of a transaction issued at
`NC = n` (42_sram_device.md R115). -/
def frameEvents (n : Count) (i : Bool) (bytes : List (Byte × Byte)) : List Event :=
  bytes.flatMap fun p => exchangeEvents (n + 1) i p.1 p.2

/-! ### Sequences of commands -/

/-- The commands one after another, each after the one before has returned (20_memory.md R57). -/
def runAll : List Instr → State → Result
  | [], s => .next s
  | i :: rest, s => Result.andThen (exec i s) (runAll rest)

/-- Properly nested ENTERs and LEAVEs: nothing, or a pair around an inner nest followed by a further nest
(40_critical_section.md R90, 30_encoding.md R75). -/
inductive Nest where
  | nothing
  | pair (inner rest : Nest)
  deriving DecidableEq, Repr

/-- The commands of a nest. -/
def Nest.commands : Nest → List Instr
  | .nothing => []
  | .pair inner rest => .enter 0 0 :: (inner.commands ++ .leave 0 0 :: rest.commands)

/-- The greatest depth of a nest. -/
def Nest.depth : Nest → Nat
  | .nothing => 0
  | .pair inner rest => max (inner.depth + 1) rest.depth

/-- The number of outermost pairs of a nest. -/
def Nest.outermost : Nest → Nat
  | .nothing => 0
  | .pair _ rest => rest.outermost + 1

/-! ### Reading a trace -/

/-- The byte of a `TX` event. -/
def Event.txByte : Event → Option Byte
  | .tx b => some b
  | .rx _ | .ie _ | .nc _ | .tick _ | .cs _ | .cfg | .err _ | .fatal _ | .irqIn | .irqOut | .ret _ _ => none

/-- The value of a `TICK` event. -/
def Event.tickValue : Event → Option Bool
  | .tick v => some v
  | .tx _ | .rx _ | .ie _ | .nc _ | .cs _ | .cfg | .err _ | .fatal _ | .irqIn | .irqOut | .ret _ _ => none

/-- The value of an `NC` event. -/
def Event.ncValue : Event → Option Count
  | .nc v => some v
  | .tx _ | .rx _ | .ie _ | .tick _ | .cs _ | .cfg | .err _ | .fatal _ | .irqIn | .irqOut | .ret _ _ => none

/-- The value of a `CS` event. -/
def Event.csValue : Event → Option Bool
  | .cs v => some v
  | .tx _ | .rx _ | .ie _ | .tick _ | .nc _ | .cfg | .err _ | .fatal _ | .irqIn | .irqOut | .ret _ _ => none

/-- The value of an `IE` event. -/
def Event.ieValue : Event → Option Bool
  | .ie v => some v
  | .tx _ | .rx _ | .cs _ | .tick _ | .nc _ | .cfg | .err _ | .fatal _ | .irqIn | .irqOut | .ret _ _ => none

/-- The part of a trace that chip-select and the bus show. -/
def Event.onBus : Event → Bool
  | .cs _ | .tx _ | .rx _ => true
  | .ie _ | .nc _ | .tick _ | .cfg | .err _ | .fatal _ | .irqIn | .irqOut | .ret _ _ => false

/-! ### Invariants -/

/-- The micro-steps that run between a gate command's disable and its restore (40_critical_section.md R92). -/
def Op.masked : Op → Bool
  | .e3 | .e4 | .e5 | .l3 | .l4 | .l5 => true
  | .e1 | .e2 | .l1 | .l2 | .x2 _ | .x3 | .x4 | .i1 | .csHigh | .csLow | .i3 | .i6 | .t6 => false

/-- The micro-steps between a gate command's capture and its disable (40_critical_section.md R92). -/
def Op.captured : Op → Bool
  | .e2 | .l2 => true
  | .e1 | .e3 | .e4 | .e5 | .l1 | .l3 | .l4 | .l5 | .x2 _ | .x3 | .x4 | .i1 | .csHigh | .csLow | .i3 | .i6 | .t6 => false

/-- The micro-step a context takes next. -/
def Bank.next (b : Bank) : Option Op := b.ph.head?.map Micro.op

/-- The phase is `Idle` or a place on the path of the command in `CMD` (10_state.md R16). -/
def Bank.onPath (b : Bank) : Prop :=
  b.ph = [] ∨ ∃ i : Instr, i.code = b.cmd ∧ b.ph <:+ commandPath i

/-- What holds at every micro-step boundary of every run from reset. -/
structure State.Inv (s : State) : Prop where
  /-- the device's cells are in canonical form -/
  mem : Memory.wf s.dev.mem = true
  /-- micro-steps run in the written order (10_state.md R16) -/
  mainPath : s.main.onPath
  irqPath : s.irq.onPath
  /-- a handler that is not running has no command in progress (60_exceptions.md R151) -/
  irqIdle : s.ctx = .main → s.irq.ph = []
  /-- from E2 to E5 and L2 to L5 interrupts are off (40_critical_section.md R92, 10_state.md R14 (c)) -/
  masked : ∀ o, (s.bank s.ctx).next = some o → o.masked = true → s.ie = false
  /-- no handler interrupts those steps (40_critical_section.md R92) -/
  notSuspended : s.ctx = .irq → ∀ o, s.main.next = some o → o.masked = false
  /-- a handler runs with interrupts off (60_exceptions.md R150) -/
  handlerIe : s.ctx = .irq → s.ie = false
  /-- inside a handler every ENTER and LEAVE captures 0 (60_exceptions.md R152) -/
  handlerSnap : s.ctx = .irq → ∀ o, s.irq.next = some o → (o.masked || o.captured) = true → s.irq.snap = false
  /-- the captured bit is still the one IE has when `main` goes on (40_critical_section.md R92) -/
  mainSnap : ∀ o, s.main.next = some o → o.captured = true → s.main.snap = if s.ctx = .main then s.ie else true
  /-- a transfer is not both in flight and complete (10_state.md R25, R27) -/
  transfer : ¬ (s.xferDone = true ∧ s.xferPending = true)
  /-- a busy-wait waits for a transfer that was started (41_bus_transport.md R103) -/
  waits : ∀ c, (s.bank c).next = some .x3 → s.xferDone = true ∨ s.xferPending = true

/-- The tick is off while `NC >= 1` (40_critical_section.md R84 (b)); between E3 and E4 of the outermost ENTER the switch is
still to be written (R95). -/
def State.TickOff (s : State) : Prop :=
  s.nc = 0 ∨ s.tickEn = false ∨ (s.nc = 1 ∧ (s.bank s.ctx).next = some .e4)

/-- Only ENTERs and LEAVEs. -/
def gateOnly (ws : List CmdWord) : Prop :=
  ∀ w ∈ ws, opField w = 1 ∨ opField w = 2

/-- No handler uses the bus or chip-select (70_reset_and_hazards.md R186 (b)). -/
structure State.HandlersOffBus (s : State) : Prop where
  handlers : ∀ ws ∈ s.cfg.handlers, gateOnly ws
  port : gateOnly s.irq.port
  running : s.irq.ph = [] ∨ s.irq.cmd = 1 ∨ s.irq.cmd = 2

/-- The phase lies between the step that asserts chip-select and the step that deasserts it (10_state.md R23). -/
def Bank.asserting (p : Config) (b : Bank) : Bool :=
  match b.ph with
  | [] => false
  | m :: _ =>
    (decide (b.cmd = 5 ∨ b.cmd = 6) && decide (2 ≤ m.stage ∧ m.stage ≤ 7)) ||
      (decide (b.cmd = 4) && p.initCsLow && decide (4 ≤ m.stage ∧ m.stage ≤ 6))

/-- Chip-select is asserted exactly while mainline code is inside a transaction (10_state.md R23). -/
def State.CsDiscipline (s : State) : Prop :=
  s.csN = !s.main.asserting s.cfg

end Sys2Proof.Machine
end

