-- ==== Sys2Proof/Certificates/Slice0/Obligations.lean ====
section
/-! DEFINITION. The statements for the provers. `State.Quiet` and `State.BusUp` are the launch premises of
70_reset_and_hazards.md R175; every other hypothesis is written out. A free value stands in a statement only as itself. -/

open Sys2Proof Sys2Proof.Machine

/-! ### Encoding -/

/-- 30_encoding.md R60 to R62: decoding the word of a command gives the command, with every field at every value. -/
def Obligations.EncodedCommandDecodesToItself : Prop :=
  ∀ i : Instr, decode (encode i) = .command i

/-- 30_encoding.md R60 to R62: a word that is a command is that command's word, so no bit of it is lost. -/
def Obligations.DecodedWordEncodesBack : Prop :=
  ∀ (w : CmdWord) (i : Instr), decode w = .command i → encode i = w

/-- 30_encoding.md R65: the words with the codes `000` and `111` are the invalid ones, and a step that meets one on the port
accepts nothing: it has no next state. R65 says that nothing is accepted, changed or emitted; that the step is refused, under a
name for each code, is the model's form of it (log 10, DEDUCED from R65, 92_eei_decisions.md D4 and
93_implementation_defined.md U8). -/
def Obligations.OnlyReservedCodesAreInvalid : Prop :=
  (∀ w : CmdWord, (∃ r, decode w = .invalid r) ↔ (opField w = 0 ∨ opField w = 7)) ∧
  (∀ (s s' : State) (w : CmdWord), s.fetch = some (w, s') → opField w = 0 → step s = .refused .reservedCode000) ∧
  (∀ (s s' : State) (w : CmdWord), s.fetch = some (w, s') → opField w = 7 → step s = .refused .reservedCode111)

/-- 30_encoding.md R61: on acceptance of a word the three fields are staged whole. -/
def Obligations.AcceptanceStagesTheFields : Prop :=
  ∀ (w : CmdWord) (i : Instr) (s t : State), decode w = .command i → accept i (commandPath i) s = .next t →
    (t.bank s.ctx).cmd = w.extractLsb' 24 3 ∧ (t.bank s.ctx).addr = w.extractLsb' 8 16 ∧
      (t.bank s.ctx).wdata = w.extractLsb' 0 8

/-- 30_encoding.md R62, R63, R74 and 95_test_vectors.md V49 to V60: words written out from the encoding. -/
def Obligations.WrittenOutWordsDecode : Prop :=
  decode 0b001_0000000000000000_00000000 = .command (.enter 0 0) ∧
  decode 0b010_0000000000000000_00000000 = .command (.leave 0 0) ∧
  decode 0b011_0000000000000000_11111111 = .command (.exchange 0 0xFF) ∧
  decode 0b100_0001001000110100_01010110 = .command (.init 0x1234 0x56) ∧
  decode 0b101_0000000000010000_00000000 = .command (.read 0x0010 0) ∧
  decode 0b110_0000000000010000_10101011 = .command (.write 0x0010 0xAB) ∧
  decode 0b000_1111111111111111_11111111 = .invalid .code000 ∧
  decode 0b111_0000000000000000_00000000 = .invalid .code111

/-- 30_encoding.md R63: the fields a command does not use may hold anything; two runs that differ only there end alike, but
for the staged field itself. `ADDR` and `WDATA` of the issuing context are forgotten before the comparison where the command
uses neither, one of them where it uses the other. -/
def Obligations.UnusedFieldsAreIgnored : Prop :=
  ∀ (s : State) (a a' : Addr) (d d' : Byte), s.Quiet →
    let forgetAddr := fun t : State => t.setBank s.ctx { t.bank s.ctx with addr := 0 }
    let forgetData := fun t : State => t.setBank s.ctx { t.bank s.ctx with wdata := 0 }
    ((Result.state? (exec (.enter a d) s)).map (fun t => forgetAddr (forgetData t)) =
      (Result.state? (exec (.enter a' d') s)).map (fun t => forgetAddr (forgetData t))) ∧
    ((Result.state? (exec (.leave a d) s)).map (fun t => forgetAddr (forgetData t)) =
      (Result.state? (exec (.leave a' d') s)).map (fun t => forgetAddr (forgetData t))) ∧
    (s.BusUp →
      (Result.state? (exec (.exchange a d) s)).map forgetAddr = (Result.state? (exec (.exchange a' d) s)).map forgetAddr ∧
      (Result.state? (exec (.init a d) s)).map (fun t => forgetAddr (forgetData t)) =
        (Result.state? (exec (.init a' d') s)).map (fun t => forgetAddr (forgetData t)) ∧
      (Result.state? (exec (.read a d) s)).map forgetData = (Result.state? (exec (.read a d') s)).map forgetData)

/-! ### The gate -/

/-- 40_critical_section.md R85: ENTER at every counter value. Every field of the state stands in the equation, so it is the
frame too: nothing else is written. In the third row the block halts at E3 (R83), and that the halted state is a next state is
log 11's reading. `rspData := 0` is log 20's reading of 30_encoding.md R64. -/
def Obligations.EnterAtEveryCounterValue : Prop :=
  ∀ (s : State) (a : Addr) (d : Byte), s.Quiet →
    (s.nc ≠ 255 → exec (.enter a d) s = .next
      { s.setBank s.ctx { s.bank s.ctx with snap := s.ie, cmd := 1, addr := a, wdata := d, ph := [] } with
        nc := s.nc + 1
        tickEn := if s.nc = 0 then false else s.tickEn
        rspData := 0
        trace := s.trace ++ ([.ie false, .nc (s.nc + 1)] ++ (if s.nc = 0 then [.tick false] else []) ++ [.ie s.ie]) ++
          [.ret s.ctx none] }) ∧
    (s.nc = 255 → exec (.enter a d) s = .next
      { s.setBank s.ctx
          { s.bank s.ctx with snap := s.ie, cmd := 1, addr := a, wdata := d, ph := [⟨0, .e3⟩, ⟨0, .e4⟩, ⟨0, .e5⟩] } with
        ie := false
        halt := true
        trace := s.trace ++ [.ie false, .fatal .overflow] })

/-- 40_critical_section.md R89: LEAVE at every counter value, with its frame; the first row is Underflow (R88), which
completes. `rspData := 0` is log 20's reading of 30_encoding.md R64. -/
def Obligations.LeaveAtEveryCounterValue : Prop :=
  ∀ (s : State) (a : Addr) (d : Byte), s.Quiet → exec (.leave a d) s = .next
    { s.setBank s.ctx { s.bank s.ctx with snap := s.ie, cmd := 2, addr := a, wdata := d, ph := [] } with
      nc := if s.nc = 0 then 0 else s.nc - 1
      tickEn := if s.nc = 1 then true else s.tickEn
      rspData := 0
      trace := s.trace ++ [.ie false] ++
        (if s.nc = 0 then [.err .underflow] else if s.nc = 1 then [.nc 0, .tick true] else [.nc (s.nc - 1)]) ++
        [.ie s.ie, .ret s.ctx none] }

/-- 10_state.md R19, 40_critical_section.md R83: while `HALT = 1` no context has a step, no command is accepted and no
handler is entered; the block's registers and ports stay as they are, and only reset leaves the state. The name of the fault
and when it is raised are log 11's. -/
def Obligations.OnlyResetLeavesTheHaltedState : Prop :=
  ∀ s : State, s.halt = true →
    (∀ i, exec i s = .fault .halted) ∧
    (s.env = [] → step s = .fault .halted) ∧
    (∀ t, step s = .next t →
      (s.env.head? = some .reset ∧ t = State.resetNow { s with env := s.env.tail }) ∨
      (t.halt = true ∧ t.nc = s.nc ∧ t.main = s.main ∧ t.irq = s.irq ∧ t.ctx = s.ctx ∧ t.ie = s.ie ∧ t.csN = s.csN ∧
        t.txd = s.txd ∧ t.rspData = s.rspData ∧ t.trace = s.trace))

/-- 40_critical_section.md R90: a properly nested sequence from `NC = 0`, never deeper than 255, ends with `NC = 0` and `IE`
as before; its `TICK` events are one `TICK(0)` and one `TICK(1)` for each outermost pair, in turn, and no other. -/
def Obligations.NestedPairsReturnToZero : Prop :=
  ∀ (n : Nest) (s : State), s.Quiet → s.nc = 0 → n.depth ≤ 255 →
    ∃ (t : State) (es : List Event), runAll n.commands s = .next t ∧ t.nc = 0 ∧ t.ie = s.ie ∧
      t.trace = s.trace ++ es ∧
      es.filterMap Event.tickValue = (List.replicate n.outermost [false, true]).flatten ∧
      t.tickEn = (if n.outermost = 0 then s.tickEn else true)

/-- 10_state.md R14: a turn that changes `NC`, and is no reset, is E3 or L3 of the running context, which moves it by exactly
one, by +1 only below 255 and by -1 only above 0, with `IE = 0`. -/
def Obligations.CounterMovesByOneWithInterruptsOff : Prop :=
  ∀ s t : State, s.Inv → turn s = .next t → t.nc ≠ s.nc → s.env.head? ≠ some .reset →
    s.ie = false ∧
    (((s.bank s.ctx).next = some .e3 ∧ s.nc.toNat < 255 ∧ t.nc.toNat = s.nc.toNat + 1) ∨
     ((s.bank s.ctx).next = some .l3 ∧ 0 < s.nc.toNat ∧ t.nc.toNat + 1 = s.nc.toNat))

/-- 40_critical_section.md R84 (b): as long as the scheduler does not write its switch itself, the tick stays off while
`NC >= 1`, through every step, whatever interrupts arrive and whatever their handlers issue. -/
def Obligations.TickStaysOffInsideRegions : Prop :=
  ∀ s t : State, s.Inv → s.TickOff → (∀ v, Move.tickWrite v ∉ s.env) → step s = .next t →
    t.TickOff ∧ ∀ v, Move.tickWrite v ∉ t.env

/-- 60_exceptions.md R149: the switches and who writes them. A turn that changes `IE` is E2, L2, E5 or L5, a handler's entry
or return, a write by other software, or a reset; one that changes `TICK_EN` is the E4 that finds `NC = 1`, the L4 that finds
`NC = 0`, a write by the scheduler, or a reset. -/
def Obligations.SwitchesHaveTheirWriters : Prop :=
  ∀ s t : State, turn s = .next t →
    (t.ie ≠ s.ie →
      (((s.bank s.ctx).next = some .e2 ∨ (s.bank s.ctx).next = some .l2) ∧ t.ie = false) ∨
      (((s.bank s.ctx).next = some .e5 ∨ (s.bank s.ctx).next = some .l5) ∧ t.ie = (s.bank s.ctx).snap) ∨
      (s.ctx = .main ∧ t.ctx = .irq ∧ t.ie = false) ∨ (s.ctx = .irq ∧ t.ctx = .main ∧ t.ie = true) ∨
      s.env.head? = some (.ieWrite t.ie) ∨ s.env.head? = some .reset) ∧
    (t.tickEn ≠ s.tickEn →
      ((s.bank s.ctx).next = some .e4 ∧ s.nc = 1 ∧ t.tickEn = false) ∨
      ((s.bank s.ctx).next = some .l4 ∧ s.nc = 0 ∧ t.tickEn = true) ∨
      s.env.head? = some (.tickWrite t.tickEn) ∨ s.env.head? = some .reset)

/-! ### Invariants -/

/-- 10_state.md R32: the state after reset meets the invariants, under every choice of the parameters. -/
def Obligations.InvariantsHoldAfterReset : Prop :=
  ∀ c : Config, (State.resetWith c).Inv ∧ (State.resetWith c).TickOff ∧ (State.resetWith c).CsDiscipline ∧
    ((∀ ws ∈ c.handlers, gateOnly ws) → (State.resetWith c).HandlersOffBus)

/-- 10_state.md R16, R25, R27, 40_critical_section.md R92, 60_exceptions.md R150 to R152: the machine's invariant is kept by
every step, whatever the environment does. -/
def Obligations.EveryStepKeepsTheInvariant : Prop :=
  ∀ s t : State, s.Inv → step s = .next t → t.Inv

/-- The same for a command run from any state that meets the invariant. -/
def Obligations.EveryCommandKeepsTheInvariant : Prop :=
  ∀ (i : Instr) (s t : State), s.Inv → exec i s = .next t → t.Inv

/-- 10_state.md R23, 70_reset_and_hazards.md R186 (b): as long as no handler uses the bus or chip-select, the line is asserted
exactly while mainline code is between the steps that assert and deassert it, through every step. -/
def Obligations.ChipSelectFollowsTheTransaction : Prop :=
  ∀ s t : State, s.Inv → s.HandlersOffBus → s.CsDiscipline → step s = .next t → t.HandlersOffBus ∧ t.CsDiscipline

/-- 10_state.md R34: `NC` equals the last `NC` event since reset, or 0; and `CS_N`, which only the block writes (R22), equals
the last `CS` event, or 1. -/
def Obligations.TraceShowsCounterAndChipSelect : Prop :=
  ∀ s t : State,
    s.nc = ((s.trace.filterMap Event.ncValue).getLast?).getD 0 ∧
      s.csN = ((s.trace.filterMap Event.csValue).getLast?).getD true →
    step s = .next t →
    t.nc = ((t.trace.filterMap Event.ncValue).getLast?).getD 0 ∧
      t.csN = ((t.trace.filterMap Event.csValue).getLast?).getD true

/-- 00_scope.md R6, R29 of 10_state.md: the parameters are no state; no step writes them. -/
def Obligations.ParametersNeverChange : Prop :=
  ∀ s t : State, step s = .next t → t.cfg = s.cfg

/-! ### Interrupts and contexts -/

/-- 60_exceptions.md R147, R153: a handler is entered only from `main`, with `HALT = 0` and `IE = 1`, the tick's handler only
with `TICK_EN = 1`, and never because of a micro-step; while `irq` runs an interrupt's turn enters nothing and changes
nothing, even with `IE = 1`. That a turn which is not possible passes is the model's form (log 17). -/
def Obligations.HandlersEnterOnlyThroughTheOpenGate : Prop :=
  (∀ s t : State, turn s = .next t → s.ctx = .main → t.ctx = .irq →
    s.halt = false ∧ s.ie = true ∧
    ∃ tick cmds, s.env.head? = some (.intr tick cmds) ∧ (tick = true → s.tickEn = true) ∧
      (cmds = [] ∨ cmds ∈ s.cfg.handlers)) ∧
  (∀ (s : State) (tick : Bool) (cmds : List CmdWord) (rest : List Move), s.ctx = .irq → s.env = .intr tick cmds :: rest →
    turn s = .next { s with env := rest })

/-- 60_exceptions.md R150: what handler entry does, and that it does nothing else. The handler's commands, a list of
`HANDLERS` (R152), stand on the handler's port: that form is log 4's choice, and the turn is named by `env` by log 3's. -/
def Obligations.HandlerEntryIsPrecise : Prop :=
  ∀ (s : State) (tick : Bool) (cmds : List CmdWord) (rest : List Move),
    s.env = .intr tick cmds :: rest → s.ctx = .main → s.halt = false → s.ie = true → (tick = true → s.tickEn = true) →
    cmds = [] ∨ cmds ∈ s.cfg.handlers →
    turn s = .next { s with
      env := rest, ctx := .irq, ie := false, irq := { s.irq with ph := [], port := cmds }, trace := s.trace ++ [.irqIn] }

/-- 60_exceptions.md R151: what handler return does, and that it restores nothing else. A finished command list is an empty
port (log 4), and the premise on `env` says that the running context has the turn (log 3). -/
def Obligations.HandlerReturnRestoresOnlyIe : Prop :=
  ∀ s : State, s.env = [] ∨ s.env.head? = some .seq → s.halt = false → s.ctx = .irq → s.irq.ph = [] → s.irq.port = [] →
    turn s = .next { s with env := s.env.tail, ctx := .main, ie := true, trace := s.trace ++ [.irqOut] }

/-- 40_critical_section.md R92: from E2 to E5 and from L2 to L5 no handler and no tick can act on `main`. -/
def Obligations.GateBodiesAreNotInterrupted : Prop :=
  ∀ (s : State) (o : Op) (tick : Bool) (cmds : List CmdWord) (rest : List Move), s.Inv → s.ctx = .main →
    s.main.next = some o → o.masked = true → s.env = .intr tick cmds :: rest →
    turn s = .next { s with env := rest }

/-- 60_exceptions.md R152: a handler that issues no command is invisible to the block: two turns later `main` goes on with
everything as it was, but for the two events. -/
def Obligations.EmptyHandlerIsInvisible : Prop :=
  ∀ (s : State) (tick : Bool) (rest : List Move), s.env = .intr tick [] :: .seq :: rest → s.ctx = .main →
    s.halt = false → s.ie = true → (tick = true → s.tickEn = true) →
    ∃ u : State, turn s = .next u ∧ turn u = .next { s with
      env := rest, irq := { s.irq with ph := [], port := [] }, trace := s.trace ++ [.irqIn, .irqOut] }

/-! ### The bus -/

/-- 41_bus_transport.md R111: EXCHANGE at every counter value, with its frame, for either level of `CS_N`. The reply and the
device's state after it are those of 20_memory.md R49 to R54. In the second part the block halts at E3 of X1 and nothing is
written to `TXD` (R109). `rspData` is 30_encoding.md R64's. That the halted state is a next state is log 11's reading; the
draws are log 5's form, `txOwner` and `txReady` the model's own fields (log 6, log 8), and so is the device after a byte that
takes the frame out of the three shapes (log 6). -/
def Obligations.ExchangeAtEveryCounterValue : Prop :=
  ∀ (s : State) (a : Addr) (d : Byte), s.Quiet →
    (s.BusUp → s.nc ≠ 255 → exec (.exchange a d) s = .next
      { s.setBank s.ctx
          { s.bank s.ctx with
            snap := s.ie, cmd := 3, addr := a, wdata := d, outb := d, inb := s.exchangeReply s.ctx d, ph := [] } with
        tickEn := if s.nc = 0 then true else s.tickEn
        txd := d
        rxd := s.exchangeReply s.ctx d
        xferDone := true
        xferPending := false
        txOwner := s.ctx
        txReady := s.busReady
        dev := s.exchangeDevice s.ctx d
        draws := s.draws + 1
        rspData := s.exchangeReply s.ctx d
        trace := s.trace ++ exchangeEvents s.nc s.ie d (s.exchangeReply s.ctx d) ++
          [.ret s.ctx (some (s.exchangeReply s.ctx d))] }) ∧
    (s.nc = 255 → exec (.exchange a d) s = .next
      { s.setBank s.ctx
          { s.bank s.ctx with snap := s.ie, cmd := 3, addr := a, wdata := d, ph := exchangePath.drop 2 } with
        ie := false
        halt := true
        trace := s.trace ++ [.ie false, .fatal .overflow] })

/-- 41_bus_transport.md R103: with a bus that does not complete, EXCHANGE sends its byte and is then held at X3, with no error,
no `RET` and `HALT = 0`; every further step leaves the state as it is. That a hang is a next state is log 12's choice. -/
def Obligations.BusHangHoldsTheContext : Prop :=
  ∀ (s : State) (a : Addr) (d : Byte), s.Quiet → s.cfg.busFair = false → s.xferPending = false → s.nc ≠ 255 →
    ∃ t : State, exec (.exchange a d) s = .next t ∧ (t.bank s.ctx).next = some .x3 ∧ t.xferDone = false ∧ t.xferPending = true ∧
      t.txd = d ∧ t.halt = false ∧ t.nc = s.nc + 1 ∧ t.ie = s.ie ∧ t.trace = s.trace ++ enterEvents s.nc s.ie ++ [.tx d] ∧
      step t = .next t

/-- 41_bus_transport.md R103: a context leaves X3 only when `XFER_DONE = 1`, or by a reset. -/
def Obligations.WaitEndsOnlyWithTransferDone : Prop :=
  ∀ s t : State, turn s = .next t → (s.bank s.ctx).next = some .x3 → (t.bank s.ctx).ph ≠ (s.bank s.ctx).ph →
    s.xferDone = true ∨ s.env.head? = some .reset

/-- 41_bus_transport.md R107: a `TXD` write while a transfer is in flight is a fault. -/
def Obligations.SecondTransferInFlightFaults : Prop :=
  ∀ (s : State) (k : Nat) (b : ByteSrc) (rest : List Micro), s.env = [] ∨ s.env.head? = some .seq → s.halt = false →
    (s.bank s.ctx).ph = ⟨k, .x2 b⟩ :: rest → s.xferPending = true → turn s = .fault .transferInFlight

/-- 41_bus_transport.md R106: the `bus` agent's one step. Its precondition is `XFER_PENDING = 1`; without it the agent has no
step. -/
def Obligations.BusAgentCompletesTheTransfer : Prop :=
  ∀ (s : State) (rest : List Move), s.env = .bus :: rest →
    (s.xferPending = true → ∃ t : State, turn s = .next t ∧
      t.rxd = (if s.csN then Config.freeByte s.draws else s.dev.reply s.cfg s.txReady s.txOwner s.txd s.draws) ∧
      t.dev = (if s.csN then s.dev else s.dev.exchange s.cfg s.txReady s.txOwner s.txd s.draws) ∧
      t.xferDone = true ∧ t.xferPending = false ∧ t.main = s.main ∧ t.irq = s.irq ∧ t.nc = s.nc ∧ t.ie = s.ie ∧
      t.tickEn = s.tickEn ∧ t.csN = s.csN ∧ t.txd = s.txd ∧ t.halt = s.halt ∧ t.trace = s.trace) ∧
    (s.xferPending = false → turn s = .next { s with env := rest })

/-! ### The device -/

/-- 20_memory.md R48: after any `MemWrite`s the device's cells hold, each, the byte of the last write to it, and a cell that
none of them wrote holds what it held: "last write wins, no caching"; and the canonical form is kept. -/
def Obligations.LastWriteToACellWins : Prop :=
  ∀ (d : Device) (ws : List (Addr × Byte)), let d' := ws.foldl (fun e w => e.write w.1 w.2) d
    (∀ x, d'.read x = ((ws.reverse.find? fun w => w.1 = x).map Prod.snd).getD (d.read x)) ∧
    (Memory.wf d.mem = true → Memory.wf d'.mem = true)

/-- 20_memory.md R50: the fifth byte of a read frame is answered with the addressed cell, high byte first, whatever byte is
sent, and no cell changes. The frame has kept to the three shapes (not `frBad`, log 6) and this exchange is of the
context that sent the four bytes, on a configured bus (log 8). -/
def Obligations.ReadFrameIsAnsweredFromTheCell : Prop :=
  ∀ (d : Device) (p : Config) (h l o : Byte) (n : Nat), p.opRead ≠ p.opWrite → d.known = true → d.frBad = false →
    d.fr = [p.opRead, p.opExt, h, l] →
    d.reply p true d.frOwner o n = d.read (h ++ l) ∧
    (∀ x, (d.exchange p true d.frOwner o n).read x = d.read x) ∧ (d.exchange p true d.frOwner o n).known = true

/-- 20_memory.md R51: the fifth byte of a write frame is stored at the addressed cell and no other cell changes; the reply is
a draw. Its premises are those of the read frame (log 6, log 8). -/
def Obligations.WriteFrameStoresTheByte : Prop :=
  ∀ (d : Device) (p : Config) (h l o : Byte) (n : Nat), p.opRead ≠ p.opWrite → d.known = true → d.frBad = false →
    d.fr = [p.opWrite, p.opExt, h, l] →
    (d.exchange p true d.frOwner o n).read (h ++ l) = o ∧
    (∀ x : Addr, x ≠ h ++ l → (d.exchange p true d.frOwner o n).read x = d.read x) ∧
    d.reply p true d.frOwner o n = Config.freeByte n

/-- 20_memory.md R54: a byte that takes the frame out of the three shapes, a data frame sent with `KNOWN = 0`, and a frame cut
short leave every cell unspecified (the free value of a new epoch), and the reply is a draw. What
takes a frame out of the shapes is log 6's reading, that the run goes on is log 9's. -/
def Obligations.BrokenFrameLosesEveryCell : Prop :=
  ∀ (d : Device) (p : Config) (ready : Bool) (c : Ctx) (o : Byte) (n : Nat),
    (d.spoils p ready c o = true ∨ (d.known = false ∧ Device.beginsInit p (d.fr ++ [o]) = false) →
      (∀ x, (d.exchange p ready c o n).read x = Config.freeCell (n + 1) x) ∧
      d.reply p ready c o n = Config.freeByte n) ∧
    (d.frBad = true ∨ Device.wholeFrame p d.fr = false → ∀ x, (d.csRise p n).read x = Config.freeCell (n + 1) x)

/-- 20_memory.md R53: an exchange completed with `CS_N = 1` does not reach the device, and its reply is a draw. -/
def Obligations.UnselectedExchangeDoesNotReachTheDevice : Prop :=
  ∀ s : State, s.csN = true → s.completeTransfer.dev = s.dev ∧ s.completeTransfer.rxd = Config.freeByte s.draws

/-! ### INIT, READ and WRITE -/

/-- 42_sram_device.md R116, R117: INIT from any `NC <= 253`, with the line deasserted: its events in order, for either value
of `INIT_CS_LOW`, what it leaves, and what it does not touch. `BUS_READY` is no premise: I1 sets it (R118). `rspData = 0` is
log 20's reading of 30_encoding.md R64. The form of the free cells is log 5's. -/
def Obligations.InitCompletes : Prop :=
  ∀ (s : State) (a : Addr) (d : Byte), s.Quiet → s.cfg.busFair = true → s.xferPending = false → s.csN = true →
    s.nc.toNat ≤ 253 →
    ∃ (t : State) (r₀ r₁ : Byte), exec (.init a d) s = .next t ∧
      t.trace = s.trace ++ transactionEvents s.nc s.ie
        (([.cfg, .cs true] : List Event) ++ ((if s.cfg.initCsLow then [.cs false] else []) : List Event) ++
          frameEvents s.nc s.ie [(s.cfg.initB0, r₀), (s.cfg.initB1, r₁)] ++ ([.cs true] : List Event)) s.ctx none ∧
      t.nc = s.nc ∧ t.ie = s.ie ∧ t.tickEn = (if s.nc = 0 then true else s.tickEn) ∧ t.csN = true ∧ t.busReady = true ∧
      t.dev.known = true ∧ (s.cfg.initKeepsMem = true → ∀ x, t.dev.read x = s.dev.read x) ∧
      (s.cfg.initKeepsMem = false → ∃ n, s.draws < n ∧ ∀ x, t.dev.read x = Config.freeCell n x) ∧
      (t.bank s.ctx) = { s.bank s.ctx with
        snap := s.ie, cmd := 4, addr := a, wdata := d, outb := s.cfg.initB1, inb := r₁, ph := [] } ∧
      (∀ c, c ≠ s.ctx → t.bank c = s.bank c) ∧ t.ctx = s.ctx ∧ t.halt = false ∧ t.txd = s.cfg.initB1 ∧ t.rxd = r₁ ∧
      t.xferDone = true ∧ t.xferPending = false ∧ t.rspData = 0 ∧ t.env = [] ∧ t.cfg = s.cfg

/-- 42_sram_device.md R122, R120: READ from any `NC <= 253` completes, initialised or not, whatever the line's level was: its
events in order, its result (presented by 30_encoding.md R64), the registers it leaves and those it does not touch. -/
def Obligations.ReadCompletes : Prop :=
  ∀ (s : State) (a : Addr) (d : Byte), s.Quiet → s.BusUp → s.nc.toNat ≤ 253 →
    ∃ (t : State) (r₀ r₁ r₂ r₃ r : Byte), exec (.read a d) s = .next t ∧
      t.trace = s.trace ++ transactionEvents s.nc s.ie
        (([.cs false] : List Event) ++ frameEvents s.nc s.ie [(s.cfg.opRead, r₀), (s.cfg.opExt, r₁), (a.extractLsb' 8 8, r₂),
          (a.extractLsb' 0 8, r₃), (0xFF, r)] ++ ([.cs true] : List Event)) s.ctx (some r) ∧
      t.rspData = r ∧ t.nc = s.nc ∧ t.ie = s.ie ∧ t.tickEn = (if s.nc = 0 then true else s.tickEn) ∧ t.csN = true ∧
      (t.bank s.ctx) = { s.bank s.ctx with
        snap := s.ie, cmd := 5, addr := a, wdata := d, rdata := r, outb := 0xFF, inb := r, ph := [] } ∧
      (∀ c, c ≠ s.ctx → t.bank c = s.bank c) ∧ t.ctx = s.ctx ∧ t.halt = false ∧ t.txd = 0xFF ∧ t.rxd = r ∧
      t.xferDone = true ∧ t.xferPending = false ∧ t.busReady = true ∧ t.env = [] ∧ t.cfg = s.cfg

/-- 42_sram_device.md R122, R124, 20_memory.md R50: after INIT a READ returns the addressed cell and changes no cell,
also where the other context had asserted the line and sent no byte yet (log 6). -/
def Obligations.ReadReturnsTheCell : Prop :=
  ∀ (s : State) (a : Addr) (d : Byte), s.Quiet → s.BusUp → s.nc.toNat ≤ 253 → s.FrameFresh → s.dev.known = true →
    ∃ t : State, exec (.read a d) s = .next t ∧ t.rspData = s.dev.read a ∧ (∀ x, t.dev.read x = s.dev.read x) ∧
      t.dev.known = true

/-- 42_sram_device.md R126, R127, R120: WRITE from any `NC <= 253` completes, initialised or not, whatever the line's level
was: its events in order, the registers it leaves and those it does not touch; it presents no information, and `rspData = 0`
is log 20's reading of 30_encoding.md R64. -/
def Obligations.WriteCompletes : Prop :=
  ∀ (s : State) (a : Addr) (v : Byte), s.Quiet → s.BusUp → s.nc.toNat ≤ 253 →
    ∃ (t : State) (r₀ r₁ r₂ r₃ r : Byte), exec (.write a v) s = .next t ∧
      t.trace = s.trace ++ transactionEvents s.nc s.ie
        (([.cs false] : List Event) ++ frameEvents s.nc s.ie [(s.cfg.opWrite, r₀), (s.cfg.opExt, r₁), (a.extractLsb' 8 8, r₂),
          (a.extractLsb' 0 8, r₃), (v, r)] ++ ([.cs true] : List Event)) s.ctx none ∧
      t.rspData = 0 ∧ t.nc = s.nc ∧ t.ie = s.ie ∧ t.tickEn = (if s.nc = 0 then true else s.tickEn) ∧ t.csN = true ∧
      (t.bank s.ctx) = { s.bank s.ctx with
        snap := s.ie, cmd := 6, addr := a, wdata := v, outb := v, inb := r, ph := [] } ∧
      (∀ c, c ≠ s.ctx → t.bank c = s.bank c) ∧ t.ctx = s.ctx ∧ t.halt = false ∧ t.txd = v ∧ t.rxd = r ∧
      t.xferDone = true ∧ t.xferPending = false ∧ t.busReady = true ∧ t.env = [] ∧ t.cfg = s.cfg

/-- 42_sram_device.md R126, 20_memory.md R51: after INIT a WRITE stores its byte at its address, and every other cell holds
what it held, also where the other context had asserted the line and sent no byte yet (log 6). -/
def Obligations.WriteStoresOneCell : Prop :=
  ∀ (s : State) (a : Addr) (v : Byte), s.Quiet → s.BusUp → s.nc.toNat ≤ 253 → s.FrameFresh → s.dev.known = true →
    ∃ t : State, exec (.write a v) s = .next t ∧ t.dev.read a = v ∧ (∀ x, x ≠ a → t.dev.read x = s.dev.read x) ∧
      t.dev.known = true

/-- 42_sram_device.md R133, R135: a transaction issued at `NC = 254` halts in the ENTER of its first exchange, with
chip-select as its last chip-select step wrote it and no byte sent; one issued at `NC = 255` halts in its own ENTER. That the
halted state is a next state is log 11's reading. -/
def Obligations.TransactionsNeedHeadRoom : Prop :=
  ∀ (s : State) (a : Addr) (d : Byte) (i : Instr), s.Quiet →
    (s.nc = 254 → i = .read a d ∨ i = .write a d → ∃ t : State, exec i s = .next t ∧ t.halt = true ∧ t.nc = 255 ∧
      t.ie = false ∧ t.csN = false ∧ t.txd = s.txd ∧ t.dev.mem = s.dev.mem ∧ t.tickEn = s.tickEn ∧
      t.trace = s.trace ++ ([.ie false, .nc 255, .ie s.ie, .cs false, .ie false, .fatal .overflow] : List Event)) ∧
    (s.nc = 254 → i = .init a d → ∃ t : State, exec i s = .next t ∧ t.halt = true ∧ t.nc = 255 ∧ t.ie = false ∧
      t.csN = !s.cfg.initCsLow ∧ t.txd = s.txd ∧ t.tickEn = s.tickEn ∧
      t.trace = s.trace ++ (([.ie false, .nc 255, .ie s.ie, .cfg, .cs true] : List Event) ++
        ((if s.cfg.initCsLow then [.cs false] else []) : List Event) ++ ([.ie false, .fatal .overflow] : List Event))) ∧
    (s.nc = 255 → i = .init a d ∨ i = .read a d ∨ i = .write a d → ∃ t : State, exec i s = .next t ∧ t.halt = true ∧
      t.nc = 255 ∧ t.ie = false ∧ t.csN = s.csN ∧ t.txd = s.txd ∧ t.dev = s.dev ∧ t.tickEn = s.tickEn ∧
      t.trace = s.trace ++ ([.ie false, .fatal .overflow] : List Event))

/-- 42_sram_device.md R128, 20_memory.md R56: after a completed `WRITE a, v`, and any commands but a WRITE to `a` and an INIT,
`READ a` returns `v`. The premise on the line and the frame is the model's form of an undisturbed
frame (log 6). -/
def Obligations.WriteThenReadReturnsTheByte : Prop :=
  ∀ (s t u : State) (a : Addr) (v d : Byte) (between : List Instr), s.Quiet → s.BusUp → s.FrameFresh →
    s.dev.known = true → s.nc.toNat ≤ 253 → exec (.write a v) s = .next t →
    (∀ i ∈ between, (∀ x y, i ≠ .init x y) ∧ (∀ y, i ≠ .write a y)) → runAll between t = .next u →
    u.halt = false → u.nc.toNat ≤ 253 →
    ∃ w : State, exec (.read a d) u = .next w ∧ w.rspData = v

/-- 42_sram_device.md R119: INIT twice leaves what INIT once leaves, in the block and in the device. -/
def Obligations.InitTwiceIsInitOnce : Prop :=
  ∀ (s t : State) (a : Addr) (d : Byte), s.Quiet → s.cfg.busFair = true → s.xferPending = false → s.csN = true →
    s.nc.toNat ≤ 253 → exec (.init a d) s = .next t →
    ∃ u : State, exec (.init a d) t = .next u ∧ u.nc = t.nc ∧ u.ie = t.ie ∧ u.tickEn = t.tickEn ∧ u.csN = t.csN ∧
      u.busReady = t.busReady ∧ u.halt = t.halt ∧ u.ctx = t.ctx ∧ u.dev.known = t.dev.known ∧
      (s.cfg.initKeepsMem = true → ∀ x, u.dev.read x = t.dev.read x)

/-- 42_sram_device.md R130: in a completed READ or WRITE the line is asserted once, before the first bus exchange, and
deasserted once, after the last, with no other chip-select event between. -/
def Obligations.ChipSelectBracketsTheFrame : Prop :=
  ∀ (s : State) (a : Addr) (d : Byte), s.Quiet → s.BusUp → s.nc.toNat ≤ 253 →
    ∀ i ∈ [Instr.read a d, Instr.write a d], ∃ (t : State) (es : List Event) (bytes : List (Byte × Byte)),
      exec i s = .next t ∧ t.trace = s.trace ++ es ∧ bytes.length = 5 ∧
      es.filter Event.onBus = ([.cs false] : List Event) ++ bytes.flatMap (fun p => ([.tx p.1, .rx p.2] : List Event)) ++
        ([.cs true] : List Event)

/-- 30_encoding.md R67 to R70: the bytes that the three transactions put on the bus, in order; the address always as two
bytes, high byte first, after an `OP_EXT` that is not derived from it. -/
def Obligations.FramesOnTheBus : Prop :=
  ∀ (s : State) (a : Addr) (v : Byte), s.Quiet → s.BusUp → s.csN = true → s.nc.toNat ≤ 253 →
    (∃ (t : State) (es : List Event), exec (.read a v) s = .next t ∧ t.trace = s.trace ++ es ∧
      es.filterMap Event.txByte = [s.cfg.opRead, s.cfg.opExt, a.extractLsb' 8 8, a.extractLsb' 0 8, 0xFF]) ∧
    (∃ (t : State) (es : List Event), exec (.write a v) s = .next t ∧ t.trace = s.trace ++ es ∧
      es.filterMap Event.txByte = [s.cfg.opWrite, s.cfg.opExt, a.extractLsb' 8 8, a.extractLsb' 0 8, v]) ∧
    (∃ (t : State) (es : List Event), exec (.init a v) s = .next t ∧ t.trace = s.trace ++ es ∧
      es.filterMap Event.txByte = [s.cfg.initB0, s.cfg.initB1])

/-- 42_sram_device.md R136: the counts per completed command, in the order exchanges, `IE` events, `NC` events (one for each
ENTER and each LEAVE), `CS` events, `TICK` events; the last are 0 unless the command takes `NC` from 0 or to 0. -/
def Obligations.CountsPerCommand : Prop :=
  ∀ (s : State) (a : Addr) (d : Byte), s.Quiet → s.BusUp → s.csN = true →
    let counts := fun (es : List Event) => [(es.filterMap Event.txByte).length, (es.filterMap Event.ieValue).length,
      (es.filterMap Event.ncValue).length, (es.filterMap Event.csValue).length, (es.filterMap Event.tickValue).length]
    let gives := fun (i : Instr) (ns : List Nat) => ∃ (t : State) (es : List Event), exec i s = .next t ∧ t.trace = s.trace ++ es ∧ counts es = ns
    (s.nc.toNat ≤ 254 → gives (.enter a d) [0, 2, 1, 0, if s.nc = 0 then 1 else 0] ∧
      gives (.exchange a d) [1, 4, 2, 0, if s.nc = 0 then 2 else 0]) ∧
    (s.nc ≠ 0 → gives (.leave a d) [0, 2, 1, 0, if s.nc = 1 then 1 else 0]) ∧
    (s.nc.toNat ≤ 253 →
      gives (.init a d) [2, 12, 6, if s.cfg.initCsLow then 3 else 2, if s.nc = 0 then 2 else 0] ∧
      gives (.read a d) [5, 24, 12, 2, if s.nc = 0 then 2 else 0] ∧
      gives (.write a d) [5, 24, 12, 2, if s.nc = 0 then 2 else 0])

/-- 42_sram_device.md R134, 20_memory.md R54, 93_implementation_defined.md U1: before any INIT the result of READ is a draw,
in `RDATA` and on the response port, as the last reply of WRITE is, and both leave every cell unspecified (an epoch later
than every draw before the command); the block raises no error and `KNOWN` stays 0. The form of the draws is log 5's. That
the model carries such a run on is log 9's choice. -/
def Obligations.TransactionBeforeInitLosesTheCells : Prop :=
  ∀ (s : State) (a : Addr) (d : Byte), s.Quiet → s.BusUp → s.nc.toNat ≤ 253 → s.FrameFresh → s.dev.known = false →
    ∀ i ∈ [Instr.read a d, Instr.write a d], ∃ (t : State) (n : Nat), exec i s = .next t ∧ t.halt = false ∧
      s.draws < n ∧ (∀ x, t.dev.read x = Config.freeCell n x) ∧ t.dev.known = false ∧
      (t.bank s.ctx).inb = Config.freeByte (s.draws + 4) ∧
      (i = .read a d → (t.bank s.ctx).rdata = Config.freeByte (s.draws + 4) ∧ t.rspData = Config.freeByte (s.draws + 4))

/-- 42_sram_device.md R131: the transaction states a READ, a WRITE and an INIT run through, in order, repeats left out. That
an INIT is `Idle` until I3 has asserted the line, or until I4 has ended where I3 does nothing, is log 23's choice. -/
def Obligations.TransactionStatesInOrder : Prop :=
  ∀ (p : Config) (b : Bank),
    let states := fun (code : CmdCode) (path : List Micro) =>
      (path.tails.map fun ph => Bank.txState p { b with cmd := code, ph := ph }).destutter (· ≠ ·)
    states 5 readPath = [.idle, .selectAsserted, .opcodeSent, .extSent, .addrHiSent, .addressSent, .dataTransferred,
      .selectDeasserted, .idle] ∧
    states 6 writePath = [.idle, .selectAsserted, .opcodeSent, .extSent, .addrHiSent, .addressSent, .dataTransferred,
      .selectDeasserted, .idle] ∧
    states 4 initPath = (if p.initCsLow then [.idle, .selectAsserted] else [.idle]) ++
      [.opcodeSent, .dataTransferred, .selectDeasserted, .idle]

/-! ### Reset, fetching, ending -/

/-- 10_state.md R32: the values the spec gives the state after reset, under every choice of the parameters. That no cell is
listed is the model's form of `MEM` unspecified (log 5). -/
def Obligations.ResetValues : Prop :=
  ∀ c : Config, let s := State.resetWith c
    s.nc = 0 ∧ s.main.ph = [] ∧ s.irq.ph = [] ∧ s.ctx = .main ∧ s.halt = false ∧ s.csN = true ∧ s.xferPending = false ∧
    s.busReady = false ∧ s.dev.fr = [] ∧ s.dev.known = false ∧ s.ie = c.ieReset ∧ s.tickEn = c.tickReset ∧ s.trace = [] ∧
    s.dev.mem = []

/-- 70_reset_and_hazards.md R170 to R172: reset at any moment, whatever the block was doing: the values of 10_state.md R32 at
once, every cell unspecified (log 5), the trace empty. What a reset keeps, the parameters among it, is log 19's choice. -/
def Obligations.ResetFromAnyState : Prop :=
  ∀ (s : State) (rest : List Move), s.env = .reset :: rest →
    ∃ t : State, turn s = .next t ∧ t.nc = 0 ∧ t.main.ph = [] ∧ t.irq.ph = [] ∧ t.ctx = .main ∧ t.halt = false ∧ t.csN = true ∧
      t.xferPending = false ∧ t.busReady = false ∧ t.dev.fr = [] ∧ t.dev.known = false ∧ t.ie = s.cfg.ieReset ∧
      t.tickEn = s.cfg.tickReset ∧ t.trace = [] ∧ (∀ x, t.dev.read x = Config.freeCell (s.draws + 1) x) ∧ t.cfg = s.cfg

/-- 70_reset_and_hazards.md R172: an idle block with no command word to take does nothing. The port as a list is log 4's
choice. -/
def Obligations.IdleBlockDoesNothing : Prop :=
  ∀ s : State, s.env = [] → s.halt = false → s.ctx = .main → s.main.ph = [] → s.main.port = [] → step s = .next s

/-- 30_encoding.md R61, R62, 10_state.md R16: a step in which the running context is idle and its turn has come runs the
command its port offers: the word leaves the port, the turn is used, and the step is `exec` of the command there. The port as
a list (log 4) and a step that runs a whole command (log 16) are the model's choices. -/
def Obligations.StepRunsTheOfferedCommand : Prop :=
  ∀ (s : State) (w : CmdWord) (ws : List CmdWord) (i : Instr), s.halt = false → (s.bank s.ctx).ph = [] →
    s.env = [] ∨ s.env.head? = some .seq → (s.bank s.ctx).port = w :: ws → decode w = .command i →
    step s = exec i { s.setBank s.ctx { s.bank s.ctx with port := ws } with env := s.env.tail }

/-- 92_eei_decisions.md D26, 20_memory.md R49: a context with a command in progress accepts none, and a configuration with
equal op-codes is refused. The two stops are the model's readings of log 11 and log 14. -/
def Obligations.CommandsNotAccepted : Prop :=
  ∀ (i : Instr) (s : State), s.halt = false →
    ((s.bank s.ctx).ph ≠ [] → exec i s = .fault .commandInProgress) ∧
    ((s.bank s.ctx).ph = [] → s.cfg.opRead = s.cfg.opWrite → exec i s = .refused .equalOpCodes)

/-- 70_reset_and_hazards.md R193: whatever the environment does, a command that gives a next state leaves its context idle
(it has completed, or a reset abandoned it), has halted in Overflow, or is held by a bus that does not complete (log 12).
That `exec` runs to the command's end is log 16's choice. -/
def Obligations.EveryCommandEndsHaltsOrHangs : Prop :=
  ∀ (i : Instr) (s t : State), exec i s = .next t → t.halt = true ∨ (t.bank s.ctx).ph = [] ∨ t.hung = true

/-- 70_reset_and_hazards.md R193, 41_bus_transport.md R106: with a bus that completes every transfer, a command that gives a
next state leaves its context idle (it has completed, or a reset abandoned it) or has halted in Overflow. A command that
stops, in a fault or a refusal, is outside it. `unreadyCompletes` is the model's own parameter (log 8). -/
def Obligations.FairBusEndsEveryCommand : Prop :=
  ∀ (i : Instr) (s t : State), s.Inv → s.cfg.busFair = true → s.cfg.unreadyCompletes = true → exec i s = .next t →
    t.halt = true ∨ (t.bank s.ctx).ph = []
end

