-- ==== Sys2Proof/Laws/Memory.lean ====
section
/-! SUPPORT. The device's cells: reading after writing, and the canonical form that every operation keeps. -/

namespace Sys2Proof.Machine

theorem Memory.find_write_self (m : List Host.Cell) (a : Nat) (v : Byte) : Memory.find (Memory.write m a v) a = some v := by
  induction m with
  | nil => simp [Memory.write, Memory.find]
  | cons p rest ih =>
    obtain ⟨b, w⟩ := p
    simp only [Memory.write]
    split_ifs with h1 h2
    · simp [Memory.find]
    · simp [Memory.find]
    · simp [Memory.find, h2, ih]

theorem Memory.find_write_other (m : List Host.Cell) {a x : Nat} (v : Byte) (h : x ≠ a) :
    Memory.find (Memory.write m a v) x = Memory.find m x := by
  induction m with
  | nil => simp [Memory.write, Memory.find, h]
  | cons p rest ih =>
    obtain ⟨b, w⟩ := p
    simp only [Memory.write]
    split_ifs with h1 h2
    · simp [Memory.find, h]
    · subst h2; simp [Memory.find, h]
    · simp [Memory.find, ih]

theorem Memory.risesFrom_write {lo a : Nat} (m : List Host.Cell) (v : Byte) (h : Memory.risesFrom lo m = true) (hl : lo ≤ a)
    (ha : a < 65536) : Memory.risesFrom lo (Memory.write m a v) = true := by
  induction m generalizing lo with
  | nil => simp [Memory.write, Memory.risesFrom, hl, ha]
  | cons p rest ih =>
    obtain ⟨b, w⟩ := p
    simp only [Memory.risesFrom, Bool.and_eq_true, decide_eq_true_eq] at h
    obtain ⟨⟨h1, h2⟩, h3⟩ := h
    simp only [Memory.write]
    split_ifs with h4 h5
    · simp only [Memory.risesFrom, Bool.and_eq_true, decide_eq_true_eq]
      exact ⟨⟨hl, ha⟩, ⟨by omega, h2⟩, h3⟩
    · subst h5
      simp only [Memory.risesFrom, Bool.and_eq_true, decide_eq_true_eq]
      exact ⟨⟨hl, ha⟩, h3⟩
    · simp only [Memory.risesFrom, Bool.and_eq_true, decide_eq_true_eq]
      exact ⟨⟨h1, h2⟩, ih h3 (by omega)⟩

theorem Memory.write_wf {m : List Host.Cell} (h : Memory.wf m = true) (a : Addr) (v : Byte) :
    Memory.wf (Memory.write m a.toNat v) = true :=
  Memory.risesFrom_write m v h (Nat.zero_le _) (by have := a.isLt; omega)

@[simp] theorem Device.csFall_mem (d : Device) : d.csFall.mem = d.mem := rfl
@[simp] theorem Device.csFall_known (d : Device) : d.csFall.known = d.known := rfl
@[simp] theorem Device.csFall_fr (d : Device) : d.csFall.fr = [] := rfl
@[simp] theorem Device.csFall_frBad (d : Device) : d.csFall.frBad = false := rfl
@[simp] theorem Device.csFall_read (d : Device) (a : Addr) : d.csFall.read a = d.read a := rfl

@[simp] theorem Device.append_mem (d : Device) (c : Ctx) (o : Byte) : (d.append c o).mem = d.mem := rfl
@[simp] theorem Device.append_epoch (d : Device) (c : Ctx) (o : Byte) : (d.append c o).epoch = d.epoch := rfl
@[simp] theorem Device.append_known (d : Device) (c : Ctx) (o : Byte) : (d.append c o).known = d.known := rfl
@[simp] theorem Device.append_fr (d : Device) (c : Ctx) (o : Byte) : (d.append c o).fr = d.fr ++ [o] := rfl
@[simp] theorem Device.append_frBad (d : Device) (c : Ctx) (o : Byte) : (d.append c o).frBad = d.frBad := rfl
@[simp] theorem Device.append_frOwner (d : Device) (c : Ctx) (o : Byte) : (d.append c o).frOwner = c := rfl
@[simp] theorem Device.append_read (d : Device) (c : Ctx) (o : Byte) (a : Addr) : (d.append c o).read a = d.read a := rfl

theorem Device.csRise_wf {d : Device} (h : Memory.wf d.mem = true) (p : Config) (n : Nat) :
    Memory.wf (d.csRise p n).mem = true := by
  unfold Device.csRise; split
  · rfl
  · exact h

theorem Device.exchange_wf {d : Device} (h : Memory.wf d.mem = true) (p : Config) (ready : Bool) (c : Ctx) (o : Byte) (n : Nat) :
    Memory.wf (d.exchange p ready c o n).mem = true := by
  unfold Device.exchange
  split
  · rfl
  · split
    · rfl
    · split
      · split
        · exact Memory.write_wf h _ _
        · exact h
      · exact h

theorem Device.initDone_wf {d : Device} (h : Memory.wf d.mem = true) (p : Config) (n : Nat) :
    Memory.wf (d.initDone p n).mem = true := by
  unfold Device.initDone; dsimp only; split
  · exact h
  · rfl

theorem Device.read_write_self (d : Device) (a : Addr) (v : Byte) : (d.write a v).read a = v := by
  simp [Device.read, Device.write, Memory.find_write_self]

theorem Device.read_write_other (d : Device) {a x : Addr} (v : Byte) (h : x ≠ a) : (d.write a v).read x = d.read x := by
  have : x.toNat ≠ a.toNat := fun e => h (BitVec.eq_of_toNat_eq e)
  simp [Device.read, Device.write, Memory.find_write_other _ _ this]

end Sys2Proof.Machine
end

