-- ==== Sys2Proof/Laws/State.lean ====
section
/-! SUPPORT. What each named update does to each field, so that no later proof unfolds a record update. -/

namespace Sys2Proof.Machine

/-! ### `emit` -/

@[simp] theorem State.emit_nc (s : State) (e : Event) : (s.emit e).nc = s.nc := rfl
@[simp] theorem State.emit_main (s : State) (e : Event) : (s.emit e).main = s.main := rfl
@[simp] theorem State.emit_irq (s : State) (e : Event) : (s.emit e).irq = s.irq := rfl
@[simp] theorem State.emit_ctx (s : State) (e : Event) : (s.emit e).ctx = s.ctx := rfl
@[simp] theorem State.emit_halt (s : State) (e : Event) : (s.emit e).halt = s.halt := rfl
@[simp] theorem State.emit_ie (s : State) (e : Event) : (s.emit e).ie = s.ie := rfl
@[simp] theorem State.emit_tickEn (s : State) (e : Event) : (s.emit e).tickEn = s.tickEn := rfl
@[simp] theorem State.emit_csN (s : State) (e : Event) : (s.emit e).csN = s.csN := rfl
@[simp] theorem State.emit_txd (s : State) (e : Event) : (s.emit e).txd = s.txd := rfl
@[simp] theorem State.emit_rxd (s : State) (e : Event) : (s.emit e).rxd = s.rxd := rfl
@[simp] theorem State.emit_xferDone (s : State) (e : Event) : (s.emit e).xferDone = s.xferDone := rfl
@[simp] theorem State.emit_xferPending (s : State) (e : Event) : (s.emit e).xferPending = s.xferPending := rfl
@[simp] theorem State.emit_busReady (s : State) (e : Event) : (s.emit e).busReady = s.busReady := rfl
@[simp] theorem State.emit_dev (s : State) (e : Event) : (s.emit e).dev = s.dev := rfl
@[simp] theorem State.emit_rspData (s : State) (e : Event) : (s.emit e).rspData = s.rspData := rfl
@[simp] theorem State.emit_trace (s : State) (e : Event) : (s.emit e).trace = s.trace ++ [e] := rfl
@[simp] theorem State.emit_txOwner (s : State) (e : Event) : (s.emit e).txOwner = s.txOwner := rfl
@[simp] theorem State.emit_txReady (s : State) (e : Event) : (s.emit e).txReady = s.txReady := rfl
@[simp] theorem State.emit_draws (s : State) (e : Event) : (s.emit e).draws = s.draws := rfl
@[simp] theorem State.emit_env (s : State) (e : Event) : (s.emit e).env = s.env := rfl
@[simp] theorem State.emit_cfg (s : State) (e : Event) : (s.emit e).cfg = s.cfg := rfl
@[simp] theorem State.emit_bank (s : State) (e : Event) (c : Ctx) : (s.emit e).bank c = s.bank c := by cases c <;> rfl

/-! ### `writeIe` -/

@[simp] theorem State.writeIe_nc (s : State) (v : Bool) : (s.writeIe v).nc = s.nc := rfl
@[simp] theorem State.writeIe_main (s : State) (v : Bool) : (s.writeIe v).main = s.main := rfl
@[simp] theorem State.writeIe_irq (s : State) (v : Bool) : (s.writeIe v).irq = s.irq := rfl
@[simp] theorem State.writeIe_ctx (s : State) (v : Bool) : (s.writeIe v).ctx = s.ctx := rfl
@[simp] theorem State.writeIe_halt (s : State) (v : Bool) : (s.writeIe v).halt = s.halt := rfl
@[simp] theorem State.writeIe_ie (s : State) (v : Bool) : (s.writeIe v).ie = v := rfl
@[simp] theorem State.writeIe_tickEn (s : State) (v : Bool) : (s.writeIe v).tickEn = s.tickEn := rfl
@[simp] theorem State.writeIe_csN (s : State) (v : Bool) : (s.writeIe v).csN = s.csN := rfl
@[simp] theorem State.writeIe_txd (s : State) (v : Bool) : (s.writeIe v).txd = s.txd := rfl
@[simp] theorem State.writeIe_rxd (s : State) (v : Bool) : (s.writeIe v).rxd = s.rxd := rfl
@[simp] theorem State.writeIe_xferDone (s : State) (v : Bool) : (s.writeIe v).xferDone = s.xferDone := rfl
@[simp] theorem State.writeIe_xferPending (s : State) (v : Bool) : (s.writeIe v).xferPending = s.xferPending := rfl
@[simp] theorem State.writeIe_busReady (s : State) (v : Bool) : (s.writeIe v).busReady = s.busReady := rfl
@[simp] theorem State.writeIe_dev (s : State) (v : Bool) : (s.writeIe v).dev = s.dev := rfl
@[simp] theorem State.writeIe_rspData (s : State) (v : Bool) : (s.writeIe v).rspData = s.rspData := rfl
@[simp] theorem State.writeIe_trace (s : State) (v : Bool) : (s.writeIe v).trace = s.trace ++ [.ie v] := rfl
@[simp] theorem State.writeIe_txOwner (s : State) (v : Bool) : (s.writeIe v).txOwner = s.txOwner := rfl
@[simp] theorem State.writeIe_txReady (s : State) (v : Bool) : (s.writeIe v).txReady = s.txReady := rfl
@[simp] theorem State.writeIe_draws (s : State) (v : Bool) : (s.writeIe v).draws = s.draws := rfl
@[simp] theorem State.writeIe_env (s : State) (v : Bool) : (s.writeIe v).env = s.env := rfl
@[simp] theorem State.writeIe_cfg (s : State) (v : Bool) : (s.writeIe v).cfg = s.cfg := rfl
@[simp] theorem State.writeIe_bank (s : State) (v : Bool) (c : Ctx) : (s.writeIe v).bank c = s.bank c := by cases c <;> rfl

/-! ### `writeNc` -/

@[simp] theorem State.writeNc_nc (s : State) (v : Count) : (s.writeNc v).nc = v := rfl
@[simp] theorem State.writeNc_main (s : State) (v : Count) : (s.writeNc v).main = s.main := rfl
@[simp] theorem State.writeNc_irq (s : State) (v : Count) : (s.writeNc v).irq = s.irq := rfl
@[simp] theorem State.writeNc_ctx (s : State) (v : Count) : (s.writeNc v).ctx = s.ctx := rfl
@[simp] theorem State.writeNc_halt (s : State) (v : Count) : (s.writeNc v).halt = s.halt := rfl
@[simp] theorem State.writeNc_ie (s : State) (v : Count) : (s.writeNc v).ie = s.ie := rfl
@[simp] theorem State.writeNc_tickEn (s : State) (v : Count) : (s.writeNc v).tickEn = s.tickEn := rfl
@[simp] theorem State.writeNc_csN (s : State) (v : Count) : (s.writeNc v).csN = s.csN := rfl
@[simp] theorem State.writeNc_txd (s : State) (v : Count) : (s.writeNc v).txd = s.txd := rfl
@[simp] theorem State.writeNc_rxd (s : State) (v : Count) : (s.writeNc v).rxd = s.rxd := rfl
@[simp] theorem State.writeNc_xferDone (s : State) (v : Count) : (s.writeNc v).xferDone = s.xferDone := rfl
@[simp] theorem State.writeNc_xferPending (s : State) (v : Count) : (s.writeNc v).xferPending = s.xferPending := rfl
@[simp] theorem State.writeNc_busReady (s : State) (v : Count) : (s.writeNc v).busReady = s.busReady := rfl
@[simp] theorem State.writeNc_dev (s : State) (v : Count) : (s.writeNc v).dev = s.dev := rfl
@[simp] theorem State.writeNc_rspData (s : State) (v : Count) : (s.writeNc v).rspData = s.rspData := rfl
@[simp] theorem State.writeNc_trace (s : State) (v : Count) : (s.writeNc v).trace = s.trace ++ [.nc v] := rfl
@[simp] theorem State.writeNc_txOwner (s : State) (v : Count) : (s.writeNc v).txOwner = s.txOwner := rfl
@[simp] theorem State.writeNc_txReady (s : State) (v : Count) : (s.writeNc v).txReady = s.txReady := rfl
@[simp] theorem State.writeNc_draws (s : State) (v : Count) : (s.writeNc v).draws = s.draws := rfl
@[simp] theorem State.writeNc_env (s : State) (v : Count) : (s.writeNc v).env = s.env := rfl
@[simp] theorem State.writeNc_cfg (s : State) (v : Count) : (s.writeNc v).cfg = s.cfg := rfl
@[simp] theorem State.writeNc_bank (s : State) (v : Count) (c : Ctx) : (s.writeNc v).bank c = s.bank c := by cases c <;> rfl

/-! ### `writeTick` -/

@[simp] theorem State.writeTick_nc (s : State) (v : Bool) : (s.writeTick v).nc = s.nc := rfl
@[simp] theorem State.writeTick_main (s : State) (v : Bool) : (s.writeTick v).main = s.main := rfl
@[simp] theorem State.writeTick_irq (s : State) (v : Bool) : (s.writeTick v).irq = s.irq := rfl
@[simp] theorem State.writeTick_ctx (s : State) (v : Bool) : (s.writeTick v).ctx = s.ctx := rfl
@[simp] theorem State.writeTick_halt (s : State) (v : Bool) : (s.writeTick v).halt = s.halt := rfl
@[simp] theorem State.writeTick_ie (s : State) (v : Bool) : (s.writeTick v).ie = s.ie := rfl
@[simp] theorem State.writeTick_tickEn (s : State) (v : Bool) : (s.writeTick v).tickEn = v := rfl
@[simp] theorem State.writeTick_csN (s : State) (v : Bool) : (s.writeTick v).csN = s.csN := rfl
@[simp] theorem State.writeTick_txd (s : State) (v : Bool) : (s.writeTick v).txd = s.txd := rfl
@[simp] theorem State.writeTick_rxd (s : State) (v : Bool) : (s.writeTick v).rxd = s.rxd := rfl
@[simp] theorem State.writeTick_xferDone (s : State) (v : Bool) : (s.writeTick v).xferDone = s.xferDone := rfl
@[simp] theorem State.writeTick_xferPending (s : State) (v : Bool) : (s.writeTick v).xferPending = s.xferPending := rfl
@[simp] theorem State.writeTick_busReady (s : State) (v : Bool) : (s.writeTick v).busReady = s.busReady := rfl
@[simp] theorem State.writeTick_dev (s : State) (v : Bool) : (s.writeTick v).dev = s.dev := rfl
@[simp] theorem State.writeTick_rspData (s : State) (v : Bool) : (s.writeTick v).rspData = s.rspData := rfl
@[simp] theorem State.writeTick_trace (s : State) (v : Bool) : (s.writeTick v).trace = s.trace ++ [.tick v] := rfl
@[simp] theorem State.writeTick_txOwner (s : State) (v : Bool) : (s.writeTick v).txOwner = s.txOwner := rfl
@[simp] theorem State.writeTick_txReady (s : State) (v : Bool) : (s.writeTick v).txReady = s.txReady := rfl
@[simp] theorem State.writeTick_draws (s : State) (v : Bool) : (s.writeTick v).draws = s.draws := rfl
@[simp] theorem State.writeTick_env (s : State) (v : Bool) : (s.writeTick v).env = s.env := rfl
@[simp] theorem State.writeTick_cfg (s : State) (v : Bool) : (s.writeTick v).cfg = s.cfg := rfl
@[simp] theorem State.writeTick_bank (s : State) (v : Bool) (c : Ctx) : (s.writeTick v).bank c = s.bank c := by cases c <;> rfl

/-! ### `busConfig` -/

@[simp] theorem State.busConfig_nc (s : State) : (s.busConfig).nc = s.nc := rfl
@[simp] theorem State.busConfig_main (s : State) : (s.busConfig).main = s.main := rfl
@[simp] theorem State.busConfig_irq (s : State) : (s.busConfig).irq = s.irq := rfl
@[simp] theorem State.busConfig_ctx (s : State) : (s.busConfig).ctx = s.ctx := rfl
@[simp] theorem State.busConfig_halt (s : State) : (s.busConfig).halt = s.halt := rfl
@[simp] theorem State.busConfig_ie (s : State) : (s.busConfig).ie = s.ie := rfl
@[simp] theorem State.busConfig_tickEn (s : State) : (s.busConfig).tickEn = s.tickEn := rfl
@[simp] theorem State.busConfig_csN (s : State) : (s.busConfig).csN = s.csN := rfl
@[simp] theorem State.busConfig_txd (s : State) : (s.busConfig).txd = s.txd := rfl
@[simp] theorem State.busConfig_rxd (s : State) : (s.busConfig).rxd = s.rxd := rfl
@[simp] theorem State.busConfig_xferDone (s : State) : (s.busConfig).xferDone = s.xferDone := rfl
@[simp] theorem State.busConfig_xferPending (s : State) : (s.busConfig).xferPending = s.xferPending := rfl
@[simp] theorem State.busConfig_busReady (s : State) : (s.busConfig).busReady = true := rfl
@[simp] theorem State.busConfig_dev (s : State) : (s.busConfig).dev = s.dev := rfl
@[simp] theorem State.busConfig_rspData (s : State) : (s.busConfig).rspData = s.rspData := rfl
@[simp] theorem State.busConfig_trace (s : State) : (s.busConfig).trace = s.trace ++ [.cfg] := rfl
@[simp] theorem State.busConfig_txOwner (s : State) : (s.busConfig).txOwner = s.txOwner := rfl
@[simp] theorem State.busConfig_txReady (s : State) : (s.busConfig).txReady = s.txReady := rfl
@[simp] theorem State.busConfig_draws (s : State) : (s.busConfig).draws = s.draws := rfl
@[simp] theorem State.busConfig_env (s : State) : (s.busConfig).env = s.env := rfl
@[simp] theorem State.busConfig_cfg (s : State) : (s.busConfig).cfg = s.cfg := rfl
@[simp] theorem State.busConfig_bank (s : State) (c : Ctx) : (s.busConfig).bank c = s.bank c := by cases c <;> rfl

/-! ### `completeTransfer` -/

@[simp] theorem State.completeTransfer_nc (s : State) : (s.completeTransfer).nc = s.nc := rfl
@[simp] theorem State.completeTransfer_main (s : State) : (s.completeTransfer).main = s.main := rfl
@[simp] theorem State.completeTransfer_irq (s : State) : (s.completeTransfer).irq = s.irq := rfl
@[simp] theorem State.completeTransfer_ctx (s : State) : (s.completeTransfer).ctx = s.ctx := rfl
@[simp] theorem State.completeTransfer_halt (s : State) : (s.completeTransfer).halt = s.halt := rfl
@[simp] theorem State.completeTransfer_ie (s : State) : (s.completeTransfer).ie = s.ie := rfl
@[simp] theorem State.completeTransfer_tickEn (s : State) : (s.completeTransfer).tickEn = s.tickEn := rfl
@[simp] theorem State.completeTransfer_csN (s : State) : (s.completeTransfer).csN = s.csN := rfl
@[simp] theorem State.completeTransfer_txd (s : State) : (s.completeTransfer).txd = s.txd := rfl
@[simp] theorem State.completeTransfer_xferDone (s : State) : (s.completeTransfer).xferDone = true := rfl
@[simp] theorem State.completeTransfer_xferPending (s : State) : (s.completeTransfer).xferPending = false := rfl
@[simp] theorem State.completeTransfer_busReady (s : State) : (s.completeTransfer).busReady = s.busReady := rfl
@[simp] theorem State.completeTransfer_rspData (s : State) : (s.completeTransfer).rspData = s.rspData := rfl
@[simp] theorem State.completeTransfer_trace (s : State) : (s.completeTransfer).trace = s.trace := rfl
@[simp] theorem State.completeTransfer_txOwner (s : State) : (s.completeTransfer).txOwner = s.txOwner := rfl
@[simp] theorem State.completeTransfer_txReady (s : State) : (s.completeTransfer).txReady = s.txReady := rfl
@[simp] theorem State.completeTransfer_draws (s : State) : (s.completeTransfer).draws = s.draws + 1 := rfl
@[simp] theorem State.completeTransfer_env (s : State) : (s.completeTransfer).env = s.env := rfl
@[simp] theorem State.completeTransfer_cfg (s : State) : (s.completeTransfer).cfg = s.cfg := rfl
@[simp] theorem State.completeTransfer_bank (s : State) (c : Ctx) : (s.completeTransfer).bank c = s.bank c := by cases c <;> rfl

/-! ### `enterHandler` -/

@[simp] theorem State.enterHandler_nc (s : State) (ws : List CmdWord) : (s.enterHandler ws).nc = s.nc := rfl
@[simp] theorem State.enterHandler_main (s : State) (ws : List CmdWord) : (s.enterHandler ws).main = s.main := rfl
@[simp] theorem State.enterHandler_irq (s : State) (ws : List CmdWord) : (s.enterHandler ws).irq = { s.irq with ph := [], port := ws } := rfl
@[simp] theorem State.enterHandler_ctx (s : State) (ws : List CmdWord) : (s.enterHandler ws).ctx = .irq := rfl
@[simp] theorem State.enterHandler_halt (s : State) (ws : List CmdWord) : (s.enterHandler ws).halt = s.halt := rfl
@[simp] theorem State.enterHandler_ie (s : State) (ws : List CmdWord) : (s.enterHandler ws).ie = false := rfl
@[simp] theorem State.enterHandler_tickEn (s : State) (ws : List CmdWord) : (s.enterHandler ws).tickEn = s.tickEn := rfl
@[simp] theorem State.enterHandler_csN (s : State) (ws : List CmdWord) : (s.enterHandler ws).csN = s.csN := rfl
@[simp] theorem State.enterHandler_txd (s : State) (ws : List CmdWord) : (s.enterHandler ws).txd = s.txd := rfl
@[simp] theorem State.enterHandler_rxd (s : State) (ws : List CmdWord) : (s.enterHandler ws).rxd = s.rxd := rfl
@[simp] theorem State.enterHandler_xferDone (s : State) (ws : List CmdWord) : (s.enterHandler ws).xferDone = s.xferDone := rfl
@[simp] theorem State.enterHandler_xferPending (s : State) (ws : List CmdWord) : (s.enterHandler ws).xferPending = s.xferPending := rfl
@[simp] theorem State.enterHandler_busReady (s : State) (ws : List CmdWord) : (s.enterHandler ws).busReady = s.busReady := rfl
@[simp] theorem State.enterHandler_dev (s : State) (ws : List CmdWord) : (s.enterHandler ws).dev = s.dev := rfl
@[simp] theorem State.enterHandler_rspData (s : State) (ws : List CmdWord) : (s.enterHandler ws).rspData = s.rspData := rfl
@[simp] theorem State.enterHandler_trace (s : State) (ws : List CmdWord) : (s.enterHandler ws).trace = s.trace ++ [.irqIn] := rfl
@[simp] theorem State.enterHandler_txOwner (s : State) (ws : List CmdWord) : (s.enterHandler ws).txOwner = s.txOwner := rfl
@[simp] theorem State.enterHandler_txReady (s : State) (ws : List CmdWord) : (s.enterHandler ws).txReady = s.txReady := rfl
@[simp] theorem State.enterHandler_draws (s : State) (ws : List CmdWord) : (s.enterHandler ws).draws = s.draws := rfl
@[simp] theorem State.enterHandler_env (s : State) (ws : List CmdWord) : (s.enterHandler ws).env = s.env := rfl
@[simp] theorem State.enterHandler_cfg (s : State) (ws : List CmdWord) : (s.enterHandler ws).cfg = s.cfg := rfl

/-! ### `leaveHandler` -/

@[simp] theorem State.leaveHandler_nc (s : State) : (s.leaveHandler).nc = s.nc := rfl
@[simp] theorem State.leaveHandler_main (s : State) : (s.leaveHandler).main = s.main := rfl
@[simp] theorem State.leaveHandler_irq (s : State) : (s.leaveHandler).irq = s.irq := rfl
@[simp] theorem State.leaveHandler_ctx (s : State) : (s.leaveHandler).ctx = .main := rfl
@[simp] theorem State.leaveHandler_halt (s : State) : (s.leaveHandler).halt = s.halt := rfl
@[simp] theorem State.leaveHandler_ie (s : State) : (s.leaveHandler).ie = true := rfl
@[simp] theorem State.leaveHandler_tickEn (s : State) : (s.leaveHandler).tickEn = s.tickEn := rfl
@[simp] theorem State.leaveHandler_csN (s : State) : (s.leaveHandler).csN = s.csN := rfl
@[simp] theorem State.leaveHandler_txd (s : State) : (s.leaveHandler).txd = s.txd := rfl
@[simp] theorem State.leaveHandler_rxd (s : State) : (s.leaveHandler).rxd = s.rxd := rfl
@[simp] theorem State.leaveHandler_xferDone (s : State) : (s.leaveHandler).xferDone = s.xferDone := rfl
@[simp] theorem State.leaveHandler_xferPending (s : State) : (s.leaveHandler).xferPending = s.xferPending := rfl
@[simp] theorem State.leaveHandler_busReady (s : State) : (s.leaveHandler).busReady = s.busReady := rfl
@[simp] theorem State.leaveHandler_dev (s : State) : (s.leaveHandler).dev = s.dev := rfl
@[simp] theorem State.leaveHandler_rspData (s : State) : (s.leaveHandler).rspData = s.rspData := rfl
@[simp] theorem State.leaveHandler_trace (s : State) : (s.leaveHandler).trace = s.trace ++ [.irqOut] := rfl
@[simp] theorem State.leaveHandler_txOwner (s : State) : (s.leaveHandler).txOwner = s.txOwner := rfl
@[simp] theorem State.leaveHandler_txReady (s : State) : (s.leaveHandler).txReady = s.txReady := rfl
@[simp] theorem State.leaveHandler_draws (s : State) : (s.leaveHandler).draws = s.draws := rfl
@[simp] theorem State.leaveHandler_env (s : State) : (s.leaveHandler).env = s.env := rfl
@[simp] theorem State.leaveHandler_cfg (s : State) : (s.leaveHandler).cfg = s.cfg := rfl
@[simp] theorem State.leaveHandler_bank (s : State) (c : Ctx) : (s.leaveHandler).bank c = s.bank c := by cases c <;> rfl

/-! ### `setBank` -/

@[simp] theorem State.setBank_nc (s : State) (c : Ctx) (b : Bank) : (s.setBank c b).nc = s.nc := by cases c <;> rfl
@[simp] theorem State.setBank_ctx (s : State) (c : Ctx) (b : Bank) : (s.setBank c b).ctx = s.ctx := by cases c <;> rfl
@[simp] theorem State.setBank_halt (s : State) (c : Ctx) (b : Bank) : (s.setBank c b).halt = s.halt := by cases c <;> rfl
@[simp] theorem State.setBank_ie (s : State) (c : Ctx) (b : Bank) : (s.setBank c b).ie = s.ie := by cases c <;> rfl
@[simp] theorem State.setBank_tickEn (s : State) (c : Ctx) (b : Bank) : (s.setBank c b).tickEn = s.tickEn := by cases c <;> rfl
@[simp] theorem State.setBank_csN (s : State) (c : Ctx) (b : Bank) : (s.setBank c b).csN = s.csN := by cases c <;> rfl
@[simp] theorem State.setBank_txd (s : State) (c : Ctx) (b : Bank) : (s.setBank c b).txd = s.txd := by cases c <;> rfl
@[simp] theorem State.setBank_rxd (s : State) (c : Ctx) (b : Bank) : (s.setBank c b).rxd = s.rxd := by cases c <;> rfl
@[simp] theorem State.setBank_xferDone (s : State) (c : Ctx) (b : Bank) : (s.setBank c b).xferDone = s.xferDone := by cases c <;> rfl
@[simp] theorem State.setBank_xferPending (s : State) (c : Ctx) (b : Bank) : (s.setBank c b).xferPending = s.xferPending := by cases c <;> rfl
@[simp] theorem State.setBank_busReady (s : State) (c : Ctx) (b : Bank) : (s.setBank c b).busReady = s.busReady := by cases c <;> rfl
@[simp] theorem State.setBank_dev (s : State) (c : Ctx) (b : Bank) : (s.setBank c b).dev = s.dev := by cases c <;> rfl
@[simp] theorem State.setBank_rspData (s : State) (c : Ctx) (b : Bank) : (s.setBank c b).rspData = s.rspData := by cases c <;> rfl
@[simp] theorem State.setBank_trace (s : State) (c : Ctx) (b : Bank) : (s.setBank c b).trace = s.trace := by cases c <;> rfl
@[simp] theorem State.setBank_txOwner (s : State) (c : Ctx) (b : Bank) : (s.setBank c b).txOwner = s.txOwner := by cases c <;> rfl
@[simp] theorem State.setBank_txReady (s : State) (c : Ctx) (b : Bank) : (s.setBank c b).txReady = s.txReady := by cases c <;> rfl
@[simp] theorem State.setBank_draws (s : State) (c : Ctx) (b : Bank) : (s.setBank c b).draws = s.draws := by cases c <;> rfl
@[simp] theorem State.setBank_env (s : State) (c : Ctx) (b : Bank) : (s.setBank c b).env = s.env := by cases c <;> rfl
@[simp] theorem State.setBank_cfg (s : State) (c : Ctx) (b : Bank) : (s.setBank c b).cfg = s.cfg := by cases c <;> rfl
@[simp] theorem State.setBank_bank (s : State) (c : Ctx) (b : Bank) : (s.setBank c b).bank c = b := by cases c <;> rfl
@[simp] theorem State.setBank_bank_other (s : State) (c : Ctx) (b : Bank) (d : Ctx) (h : d ≠ c) : (s.setBank c b).bank d = s.bank d := by
  cases c <;> cases d <;> first | rfl | exact absurd rfl h

/-! ### `setPh` -/

@[simp] theorem State.setPh_nc (s : State) (c : Ctx) (l : List Micro) : (s.setPh c l).nc = s.nc := by cases c <;> rfl
@[simp] theorem State.setPh_ctx (s : State) (c : Ctx) (l : List Micro) : (s.setPh c l).ctx = s.ctx := by cases c <;> rfl
@[simp] theorem State.setPh_halt (s : State) (c : Ctx) (l : List Micro) : (s.setPh c l).halt = s.halt := by cases c <;> rfl
@[simp] theorem State.setPh_ie (s : State) (c : Ctx) (l : List Micro) : (s.setPh c l).ie = s.ie := by cases c <;> rfl
@[simp] theorem State.setPh_tickEn (s : State) (c : Ctx) (l : List Micro) : (s.setPh c l).tickEn = s.tickEn := by cases c <;> rfl
@[simp] theorem State.setPh_csN (s : State) (c : Ctx) (l : List Micro) : (s.setPh c l).csN = s.csN := by cases c <;> rfl
@[simp] theorem State.setPh_txd (s : State) (c : Ctx) (l : List Micro) : (s.setPh c l).txd = s.txd := by cases c <;> rfl
@[simp] theorem State.setPh_rxd (s : State) (c : Ctx) (l : List Micro) : (s.setPh c l).rxd = s.rxd := by cases c <;> rfl
@[simp] theorem State.setPh_xferDone (s : State) (c : Ctx) (l : List Micro) : (s.setPh c l).xferDone = s.xferDone := by cases c <;> rfl
@[simp] theorem State.setPh_xferPending (s : State) (c : Ctx) (l : List Micro) : (s.setPh c l).xferPending = s.xferPending := by cases c <;> rfl
@[simp] theorem State.setPh_busReady (s : State) (c : Ctx) (l : List Micro) : (s.setPh c l).busReady = s.busReady := by cases c <;> rfl
@[simp] theorem State.setPh_dev (s : State) (c : Ctx) (l : List Micro) : (s.setPh c l).dev = s.dev := by cases c <;> rfl
@[simp] theorem State.setPh_rspData (s : State) (c : Ctx) (l : List Micro) : (s.setPh c l).rspData = s.rspData := by cases c <;> rfl
@[simp] theorem State.setPh_trace (s : State) (c : Ctx) (l : List Micro) : (s.setPh c l).trace = s.trace := by cases c <;> rfl
@[simp] theorem State.setPh_txOwner (s : State) (c : Ctx) (l : List Micro) : (s.setPh c l).txOwner = s.txOwner := by cases c <;> rfl
@[simp] theorem State.setPh_txReady (s : State) (c : Ctx) (l : List Micro) : (s.setPh c l).txReady = s.txReady := by cases c <;> rfl
@[simp] theorem State.setPh_draws (s : State) (c : Ctx) (l : List Micro) : (s.setPh c l).draws = s.draws := by cases c <;> rfl
@[simp] theorem State.setPh_env (s : State) (c : Ctx) (l : List Micro) : (s.setPh c l).env = s.env := by cases c <;> rfl
@[simp] theorem State.setPh_cfg (s : State) (c : Ctx) (l : List Micro) : (s.setPh c l).cfg = s.cfg := by cases c <;> rfl
@[simp] theorem State.setPh_bank (s : State) (c : Ctx) (l : List Micro) : (s.setPh c l).bank c = { s.bank c with ph := l } := by cases c <;> rfl
@[simp] theorem State.setPh_bank_other (s : State) (c : Ctx) (l : List Micro) (d : Ctx) (h : d ≠ c) : (s.setPh c l).bank d = s.bank d := by
  cases c <;> cases d <;> first | rfl | exact absurd rfl h

/-! ### `capture` -/

@[simp] theorem State.capture_nc (s : State) (c : Ctx) : (s.capture c).nc = s.nc := by cases c <;> rfl
@[simp] theorem State.capture_ctx (s : State) (c : Ctx) : (s.capture c).ctx = s.ctx := by cases c <;> rfl
@[simp] theorem State.capture_halt (s : State) (c : Ctx) : (s.capture c).halt = s.halt := by cases c <;> rfl
@[simp] theorem State.capture_ie (s : State) (c : Ctx) : (s.capture c).ie = s.ie := by cases c <;> rfl
@[simp] theorem State.capture_tickEn (s : State) (c : Ctx) : (s.capture c).tickEn = s.tickEn := by cases c <;> rfl
@[simp] theorem State.capture_csN (s : State) (c : Ctx) : (s.capture c).csN = s.csN := by cases c <;> rfl
@[simp] theorem State.capture_txd (s : State) (c : Ctx) : (s.capture c).txd = s.txd := by cases c <;> rfl
@[simp] theorem State.capture_rxd (s : State) (c : Ctx) : (s.capture c).rxd = s.rxd := by cases c <;> rfl
@[simp] theorem State.capture_xferDone (s : State) (c : Ctx) : (s.capture c).xferDone = s.xferDone := by cases c <;> rfl
@[simp] theorem State.capture_xferPending (s : State) (c : Ctx) : (s.capture c).xferPending = s.xferPending := by cases c <;> rfl
@[simp] theorem State.capture_busReady (s : State) (c : Ctx) : (s.capture c).busReady = s.busReady := by cases c <;> rfl
@[simp] theorem State.capture_dev (s : State) (c : Ctx) : (s.capture c).dev = s.dev := by cases c <;> rfl
@[simp] theorem State.capture_rspData (s : State) (c : Ctx) : (s.capture c).rspData = s.rspData := by cases c <;> rfl
@[simp] theorem State.capture_trace (s : State) (c : Ctx) : (s.capture c).trace = s.trace := by cases c <;> rfl
@[simp] theorem State.capture_txOwner (s : State) (c : Ctx) : (s.capture c).txOwner = s.txOwner := by cases c <;> rfl
@[simp] theorem State.capture_txReady (s : State) (c : Ctx) : (s.capture c).txReady = s.txReady := by cases c <;> rfl
@[simp] theorem State.capture_draws (s : State) (c : Ctx) : (s.capture c).draws = s.draws := by cases c <;> rfl
@[simp] theorem State.capture_env (s : State) (c : Ctx) : (s.capture c).env = s.env := by cases c <;> rfl
@[simp] theorem State.capture_cfg (s : State) (c : Ctx) : (s.capture c).cfg = s.cfg := by cases c <;> rfl
@[simp] theorem State.capture_bank (s : State) (c : Ctx) : (s.capture c).bank c = { s.bank c with snap := s.ie } := by cases c <;> rfl
@[simp] theorem State.capture_bank_other (s : State) (c : Ctx) (d : Ctx) (h : d ≠ c) : (s.capture c).bank d = s.bank d := by
  cases c <;> cases d <;> first | rfl | exact absurd rfl h

/-! ### `startTransfer` -/

@[simp] theorem State.startTransfer_nc (s : State) (c : Ctx) (v : Byte) : (s.startTransfer c v).nc = s.nc := by cases c <;> rfl
@[simp] theorem State.startTransfer_ctx (s : State) (c : Ctx) (v : Byte) : (s.startTransfer c v).ctx = s.ctx := by cases c <;> rfl
@[simp] theorem State.startTransfer_halt (s : State) (c : Ctx) (v : Byte) : (s.startTransfer c v).halt = s.halt := by cases c <;> rfl
@[simp] theorem State.startTransfer_ie (s : State) (c : Ctx) (v : Byte) : (s.startTransfer c v).ie = s.ie := by cases c <;> rfl
@[simp] theorem State.startTransfer_tickEn (s : State) (c : Ctx) (v : Byte) : (s.startTransfer c v).tickEn = s.tickEn := by cases c <;> rfl
@[simp] theorem State.startTransfer_csN (s : State) (c : Ctx) (v : Byte) : (s.startTransfer c v).csN = s.csN := by cases c <;> rfl
@[simp] theorem State.startTransfer_txd (s : State) (c : Ctx) (v : Byte) : (s.startTransfer c v).txd = v := by cases c <;> rfl
@[simp] theorem State.startTransfer_rxd (s : State) (c : Ctx) (v : Byte) : (s.startTransfer c v).rxd = s.rxd := by cases c <;> rfl
@[simp] theorem State.startTransfer_xferDone (s : State) (c : Ctx) (v : Byte) : (s.startTransfer c v).xferDone = false := by cases c <;> rfl
@[simp] theorem State.startTransfer_xferPending (s : State) (c : Ctx) (v : Byte) : (s.startTransfer c v).xferPending = true := by cases c <;> rfl
@[simp] theorem State.startTransfer_busReady (s : State) (c : Ctx) (v : Byte) : (s.startTransfer c v).busReady = s.busReady := by cases c <;> rfl
@[simp] theorem State.startTransfer_dev (s : State) (c : Ctx) (v : Byte) : (s.startTransfer c v).dev = s.dev := by cases c <;> rfl
@[simp] theorem State.startTransfer_rspData (s : State) (c : Ctx) (v : Byte) : (s.startTransfer c v).rspData = s.rspData := by cases c <;> rfl
@[simp] theorem State.startTransfer_trace (s : State) (c : Ctx) (v : Byte) : (s.startTransfer c v).trace = s.trace ++ [.tx v] := by cases c <;> rfl
@[simp] theorem State.startTransfer_txOwner (s : State) (c : Ctx) (v : Byte) : (s.startTransfer c v).txOwner = c := by cases c <;> rfl
@[simp] theorem State.startTransfer_txReady (s : State) (c : Ctx) (v : Byte) : (s.startTransfer c v).txReady = s.busReady := by cases c <;> rfl
@[simp] theorem State.startTransfer_draws (s : State) (c : Ctx) (v : Byte) : (s.startTransfer c v).draws = s.draws := by cases c <;> rfl
@[simp] theorem State.startTransfer_env (s : State) (c : Ctx) (v : Byte) : (s.startTransfer c v).env = s.env := by cases c <;> rfl
@[simp] theorem State.startTransfer_cfg (s : State) (c : Ctx) (v : Byte) : (s.startTransfer c v).cfg = s.cfg := by cases c <;> rfl
@[simp] theorem State.startTransfer_bank (s : State) (c : Ctx) (v : Byte) : (s.startTransfer c v).bank c = { s.bank c with outb := v } := by cases c <;> rfl
@[simp] theorem State.startTransfer_bank_other (s : State) (c : Ctx) (v : Byte) (d : Ctx) (h : d ≠ c) : (s.startTransfer c v).bank d = s.bank d := by
  cases c <;> cases d <;> first | rfl | exact absurd rfl h

/-! ### `receive` -/

@[simp] theorem State.receive_nc (s : State) (c : Ctx) : (s.receive c).nc = s.nc := by cases c <;> rfl
@[simp] theorem State.receive_ctx (s : State) (c : Ctx) : (s.receive c).ctx = s.ctx := by cases c <;> rfl
@[simp] theorem State.receive_halt (s : State) (c : Ctx) : (s.receive c).halt = s.halt := by cases c <;> rfl
@[simp] theorem State.receive_ie (s : State) (c : Ctx) : (s.receive c).ie = s.ie := by cases c <;> rfl
@[simp] theorem State.receive_tickEn (s : State) (c : Ctx) : (s.receive c).tickEn = s.tickEn := by cases c <;> rfl
@[simp] theorem State.receive_csN (s : State) (c : Ctx) : (s.receive c).csN = s.csN := by cases c <;> rfl
@[simp] theorem State.receive_txd (s : State) (c : Ctx) : (s.receive c).txd = s.txd := by cases c <;> rfl
@[simp] theorem State.receive_rxd (s : State) (c : Ctx) : (s.receive c).rxd = s.rxd := by cases c <;> rfl
@[simp] theorem State.receive_xferDone (s : State) (c : Ctx) : (s.receive c).xferDone = s.xferDone := by cases c <;> rfl
@[simp] theorem State.receive_xferPending (s : State) (c : Ctx) : (s.receive c).xferPending = s.xferPending := by cases c <;> rfl
@[simp] theorem State.receive_busReady (s : State) (c : Ctx) : (s.receive c).busReady = s.busReady := by cases c <;> rfl
@[simp] theorem State.receive_dev (s : State) (c : Ctx) : (s.receive c).dev = s.dev := by cases c <;> rfl
@[simp] theorem State.receive_rspData (s : State) (c : Ctx) : (s.receive c).rspData = s.rspData := by cases c <;> rfl
@[simp] theorem State.receive_trace (s : State) (c : Ctx) : (s.receive c).trace = s.trace ++ [.rx s.rxd] := by cases c <;> rfl
@[simp] theorem State.receive_txOwner (s : State) (c : Ctx) : (s.receive c).txOwner = s.txOwner := by cases c <;> rfl
@[simp] theorem State.receive_txReady (s : State) (c : Ctx) : (s.receive c).txReady = s.txReady := by cases c <;> rfl
@[simp] theorem State.receive_draws (s : State) (c : Ctx) : (s.receive c).draws = s.draws := by cases c <;> rfl
@[simp] theorem State.receive_env (s : State) (c : Ctx) : (s.receive c).env = s.env := by cases c <;> rfl
@[simp] theorem State.receive_cfg (s : State) (c : Ctx) : (s.receive c).cfg = s.cfg := by cases c <;> rfl
@[simp] theorem State.receive_bank (s : State) (c : Ctx) : (s.receive c).bank c = { s.bank c with inb := s.rxd } := by cases c <;> rfl
@[simp] theorem State.receive_bank_other (s : State) (c : Ctx) (d : Ctx) (h : d ≠ c) : (s.receive c).bank d = s.bank d := by
  cases c <;> cases d <;> first | rfl | exact absurd rfl h

/-! ### `finish` -/

@[simp] theorem State.finish_nc (s : State) (c : Ctx) : (s.finish c).nc = s.nc := by cases c <;> rfl
@[simp] theorem State.finish_ctx (s : State) (c : Ctx) : (s.finish c).ctx = s.ctx := by cases c <;> rfl
@[simp] theorem State.finish_halt (s : State) (c : Ctx) : (s.finish c).halt = s.halt := by cases c <;> rfl
@[simp] theorem State.finish_ie (s : State) (c : Ctx) : (s.finish c).ie = s.ie := by cases c <;> rfl
@[simp] theorem State.finish_tickEn (s : State) (c : Ctx) : (s.finish c).tickEn = s.tickEn := by cases c <;> rfl
@[simp] theorem State.finish_csN (s : State) (c : Ctx) : (s.finish c).csN = s.csN := by cases c <;> rfl
@[simp] theorem State.finish_txd (s : State) (c : Ctx) : (s.finish c).txd = s.txd := by cases c <;> rfl
@[simp] theorem State.finish_rxd (s : State) (c : Ctx) : (s.finish c).rxd = s.rxd := by cases c <;> rfl
@[simp] theorem State.finish_xferDone (s : State) (c : Ctx) : (s.finish c).xferDone = s.xferDone := by cases c <;> rfl
@[simp] theorem State.finish_xferPending (s : State) (c : Ctx) : (s.finish c).xferPending = s.xferPending := by cases c <;> rfl
@[simp] theorem State.finish_busReady (s : State) (c : Ctx) : (s.finish c).busReady = s.busReady := by cases c <;> rfl
@[simp] theorem State.finish_dev (s : State) (c : Ctx) : (s.finish c).dev = s.dev := by cases c <;> rfl
@[simp] theorem State.finish_rspData (s : State) (c : Ctx) : (s.finish c).rspData = (s.bank c).result.getD 0 := by cases c <;> rfl
@[simp] theorem State.finish_trace (s : State) (c : Ctx) : (s.finish c).trace = s.trace ++ [.ret c (s.bank c).result] := by cases c <;> rfl
@[simp] theorem State.finish_txOwner (s : State) (c : Ctx) : (s.finish c).txOwner = s.txOwner := by cases c <;> rfl
@[simp] theorem State.finish_txReady (s : State) (c : Ctx) : (s.finish c).txReady = s.txReady := by cases c <;> rfl
@[simp] theorem State.finish_draws (s : State) (c : Ctx) : (s.finish c).draws = s.draws := by cases c <;> rfl
@[simp] theorem State.finish_env (s : State) (c : Ctx) : (s.finish c).env = s.env := by cases c <;> rfl
@[simp] theorem State.finish_cfg (s : State) (c : Ctx) : (s.finish c).cfg = s.cfg := by cases c <;> rfl
@[simp] theorem State.finish_bank (s : State) (c : Ctx) : (s.finish c).bank c = { s.bank c with ph := [] } := by cases c <;> rfl
@[simp] theorem State.finish_bank_other (s : State) (c : Ctx) (d : Ctx) (h : d ≠ c) : (s.finish c).bank d = s.bank d := by
  cases c <;> cases d <;> first | rfl | exact absurd rfl h

/-! ### `writeCs` -/

@[simp] theorem State.writeCs_nc (s : State) (v : Bool) : (s.writeCs v).nc = s.nc := by
  unfold State.writeCs; dsimp only; split <;> [rfl; (split <;> rfl)]
@[simp] theorem State.writeCs_main (s : State) (v : Bool) : (s.writeCs v).main = s.main := by
  unfold State.writeCs; dsimp only; split <;> [rfl; (split <;> rfl)]
@[simp] theorem State.writeCs_irq (s : State) (v : Bool) : (s.writeCs v).irq = s.irq := by
  unfold State.writeCs; dsimp only; split <;> [rfl; (split <;> rfl)]
@[simp] theorem State.writeCs_ctx (s : State) (v : Bool) : (s.writeCs v).ctx = s.ctx := by
  unfold State.writeCs; dsimp only; split <;> [rfl; (split <;> rfl)]
@[simp] theorem State.writeCs_halt (s : State) (v : Bool) : (s.writeCs v).halt = s.halt := by
  unfold State.writeCs; dsimp only; split <;> [rfl; (split <;> rfl)]
@[simp] theorem State.writeCs_ie (s : State) (v : Bool) : (s.writeCs v).ie = s.ie := by
  unfold State.writeCs; dsimp only; split <;> [rfl; (split <;> rfl)]
@[simp] theorem State.writeCs_tickEn (s : State) (v : Bool) : (s.writeCs v).tickEn = s.tickEn := by
  unfold State.writeCs; dsimp only; split <;> [rfl; (split <;> rfl)]
@[simp] theorem State.writeCs_csN (s : State) (v : Bool) : (s.writeCs v).csN = v := by
  unfold State.writeCs; dsimp only; split <;> [rfl; (split <;> rfl)]
@[simp] theorem State.writeCs_txd (s : State) (v : Bool) : (s.writeCs v).txd = s.txd := by
  unfold State.writeCs; dsimp only; split <;> [rfl; (split <;> rfl)]
@[simp] theorem State.writeCs_rxd (s : State) (v : Bool) : (s.writeCs v).rxd = s.rxd := by
  unfold State.writeCs; dsimp only; split <;> [rfl; (split <;> rfl)]
@[simp] theorem State.writeCs_xferDone (s : State) (v : Bool) : (s.writeCs v).xferDone = s.xferDone := by
  unfold State.writeCs; dsimp only; split <;> [rfl; (split <;> rfl)]
@[simp] theorem State.writeCs_xferPending (s : State) (v : Bool) : (s.writeCs v).xferPending = s.xferPending := by
  unfold State.writeCs; dsimp only; split <;> [rfl; (split <;> rfl)]
@[simp] theorem State.writeCs_busReady (s : State) (v : Bool) : (s.writeCs v).busReady = s.busReady := by
  unfold State.writeCs; dsimp only; split <;> [rfl; (split <;> rfl)]
@[simp] theorem State.writeCs_rspData (s : State) (v : Bool) : (s.writeCs v).rspData = s.rspData := by
  unfold State.writeCs; dsimp only; split <;> [rfl; (split <;> rfl)]
@[simp] theorem State.writeCs_trace (s : State) (v : Bool) : (s.writeCs v).trace = s.trace ++ [.cs v] := by
  unfold State.writeCs; dsimp only; split <;> [rfl; (split <;> rfl)]
@[simp] theorem State.writeCs_txOwner (s : State) (v : Bool) : (s.writeCs v).txOwner = s.txOwner := by
  unfold State.writeCs; dsimp only; split <;> [rfl; (split <;> rfl)]
@[simp] theorem State.writeCs_txReady (s : State) (v : Bool) : (s.writeCs v).txReady = s.txReady := by
  unfold State.writeCs; dsimp only; split <;> [rfl; (split <;> rfl)]
@[simp] theorem State.writeCs_env (s : State) (v : Bool) : (s.writeCs v).env = s.env := by
  unfold State.writeCs; dsimp only; split <;> [rfl; (split <;> rfl)]
@[simp] theorem State.writeCs_cfg (s : State) (v : Bool) : (s.writeCs v).cfg = s.cfg := by
  unfold State.writeCs; dsimp only; split <;> [rfl; (split <;> rfl)]
@[simp] theorem State.writeCs_bank (s : State) (v : Bool) (d : Ctx) : (s.writeCs v).bank d = s.bank d := by
  cases d <;> simp [State.bank]

/-! ### `endInit` -/

@[simp] theorem State.endInit_nc (s : State) : s.endInit.nc = s.nc := by
  simp [State.endInit]
@[simp] theorem State.endInit_main (s : State) : s.endInit.main = s.main := by
  simp [State.endInit]
@[simp] theorem State.endInit_irq (s : State) : s.endInit.irq = s.irq := by
  simp [State.endInit]
@[simp] theorem State.endInit_ctx (s : State) : s.endInit.ctx = s.ctx := by
  simp [State.endInit]
@[simp] theorem State.endInit_halt (s : State) : s.endInit.halt = s.halt := by
  simp [State.endInit]
@[simp] theorem State.endInit_ie (s : State) : s.endInit.ie = s.ie := by
  simp [State.endInit]
@[simp] theorem State.endInit_tickEn (s : State) : s.endInit.tickEn = s.tickEn := by
  simp [State.endInit]
@[simp] theorem State.endInit_csN (s : State) : s.endInit.csN = true := by
  simp [State.endInit]
@[simp] theorem State.endInit_txd (s : State) : s.endInit.txd = s.txd := by
  simp [State.endInit]
@[simp] theorem State.endInit_rxd (s : State) : s.endInit.rxd = s.rxd := by
  simp [State.endInit]
@[simp] theorem State.endInit_xferDone (s : State) : s.endInit.xferDone = s.xferDone := by
  simp [State.endInit]
@[simp] theorem State.endInit_xferPending (s : State) : s.endInit.xferPending = s.xferPending := by
  simp [State.endInit]
@[simp] theorem State.endInit_busReady (s : State) : s.endInit.busReady = s.busReady := by
  simp [State.endInit]
@[simp] theorem State.endInit_rspData (s : State) : s.endInit.rspData = s.rspData := by
  simp [State.endInit]
@[simp] theorem State.endInit_trace (s : State) : s.endInit.trace = s.trace ++ [.cs true] := by
  simp [State.endInit]
@[simp] theorem State.endInit_txOwner (s : State) : s.endInit.txOwner = s.txOwner := by
  simp [State.endInit]
@[simp] theorem State.endInit_txReady (s : State) : s.endInit.txReady = s.txReady := by
  simp [State.endInit]
@[simp] theorem State.endInit_env (s : State) : s.endInit.env = s.env := by
  simp [State.endInit]
@[simp] theorem State.endInit_cfg (s : State) : s.endInit.cfg = s.cfg := by
  simp [State.endInit]
@[simp] theorem State.endInit_bank (s : State) (d : Ctx) : s.endInit.bank d = s.bank d := by
  cases d <;> simp [State.bank]

/-! ### Updates of other fields, seen through `bank` -/

@[simp] theorem State.bank_with_nc (s : State) x (c : Ctx) : State.bank { s with nc := x } c = s.bank c := by cases c <;> rfl
@[simp] theorem State.bank_with_ctx (s : State) x (c : Ctx) : State.bank { s with ctx := x } c = s.bank c := by cases c <;> rfl
@[simp] theorem State.bank_with_halt (s : State) x (c : Ctx) : State.bank { s with halt := x } c = s.bank c := by cases c <;> rfl
@[simp] theorem State.bank_with_ie (s : State) x (c : Ctx) : State.bank { s with ie := x } c = s.bank c := by cases c <;> rfl
@[simp] theorem State.bank_with_tickEn (s : State) x (c : Ctx) : State.bank { s with tickEn := x } c = s.bank c := by cases c <;> rfl
@[simp] theorem State.bank_with_csN (s : State) x (c : Ctx) : State.bank { s with csN := x } c = s.bank c := by cases c <;> rfl
@[simp] theorem State.bank_with_txd (s : State) x (c : Ctx) : State.bank { s with txd := x } c = s.bank c := by cases c <;> rfl
@[simp] theorem State.bank_with_rxd (s : State) x (c : Ctx) : State.bank { s with rxd := x } c = s.bank c := by cases c <;> rfl
@[simp] theorem State.bank_with_xferDone (s : State) x (c : Ctx) : State.bank { s with xferDone := x } c = s.bank c := by cases c <;> rfl
@[simp] theorem State.bank_with_xferPending (s : State) x (c : Ctx) : State.bank { s with xferPending := x } c = s.bank c := by cases c <;> rfl
@[simp] theorem State.bank_with_busReady (s : State) x (c : Ctx) : State.bank { s with busReady := x } c = s.bank c := by cases c <;> rfl
@[simp] theorem State.bank_with_dev (s : State) x (c : Ctx) : State.bank { s with dev := x } c = s.bank c := by cases c <;> rfl
@[simp] theorem State.bank_with_rspData (s : State) x (c : Ctx) : State.bank { s with rspData := x } c = s.bank c := by cases c <;> rfl
@[simp] theorem State.bank_with_trace (s : State) x (c : Ctx) : State.bank { s with trace := x } c = s.bank c := by cases c <;> rfl
@[simp] theorem State.bank_with_txOwner (s : State) x (c : Ctx) : State.bank { s with txOwner := x } c = s.bank c := by cases c <;> rfl
@[simp] theorem State.bank_with_txReady (s : State) x (c : Ctx) : State.bank { s with txReady := x } c = s.bank c := by cases c <;> rfl
@[simp] theorem State.bank_with_draws (s : State) x (c : Ctx) : State.bank { s with draws := x } c = s.bank c := by cases c <;> rfl
@[simp] theorem State.bank_with_env (s : State) x (c : Ctx) : State.bank { s with env := x } c = s.bank c := by cases c <;> rfl
@[simp] theorem State.bank_with_cfg (s : State) x (c : Ctx) : State.bank { s with cfg := x } c = s.bank c := by cases c <;> rfl

end Sys2Proof.Machine
end

