-- ==== Sys2Proof/Laws/Turn.lean ====
section
/-! SUPPORT. What a step is made of: turns of the agents. A property that every turn keeps is kept by every step. -/

namespace Sys2Proof.Machine

theorem Result.andThen_eq_next {r : Result} {f : State → Result} {t : State} (h : r.andThen f = .next t) :
    ∃ u, r = .next u ∧ f u = .next t := by
  cases r with
  | next u => exact ⟨u, rfl, h⟩
  | fault e => exact nomatch h
  | refused e => exact nomatch h

theorem drive_keeps {P : State → Prop} (hP : ∀ s t, P s → turn s = .next t → P t) :
    ∀ (n : Nat) (c : Ctx) (s t : State), P s → drive n c s = .next t → P t
  | 0, _, _, _, hs, h => by cases h; exact hs
  | n + 1, c, s, t, hs, h => by
    rw [drive] at h
    split at h
    · cases h; exact hs
    · obtain ⟨u, hu, ht⟩ := Result.andThen_eq_next h
      exact drive_keeps hP n c u t (hP s u hs hu) ht

/-- Every command's meaning is acceptance and then the running of its path. -/
theorem exec_eq_runCommand (i : Instr) (s : State) : exec i s = runCommand i (commandPath i) s := by
  cases i <;> rfl

theorem State.takeWord_with_env (s : State) (e : List Move) :
    State.takeWord { s with env := e } = { s.takeWord with env := e } := by
  cases h : s.ctx <;> simp [State.takeWord, State.setBank, State.bank, h]

/-- The running context's turn when it is idle with a command on its port. -/
theorem seqTurn_accept {s : State} {w : CmdWord} {ws : List CmdWord} {i : Instr} (hi : (s.bank s.ctx).ph = [])
    (hp : (s.bank s.ctx).port = w :: ws) (hd : decode w = .command i) :
    seqTurn s = accept i (commandPath i) s.takeWord := by
  simp only [seqTurn, hi, hp, hd]

/-- What fetching gives, if it gives something. -/
theorem fetch_eq_some {s s' : State} {w : CmdWord} (hf : s.fetch = some (w, s')) :
    s.halt = false ∧ (s.bank s.ctx).ph = [] ∧ (s.env = [] ∨ s.env = .seq :: s.env.tail) ∧
      (∃ ws, (s.bank s.ctx).port = w :: ws) ∧ s' = { s.takeWord with env := s.env.tail } := by
  unfold State.fetch at hf
  split_ifs at hf with hm
  simp only [State.mayFetch, Bool.and_eq_true, Bool.or_eq_true, Bool.not_eq_true', decide_eq_true_eq] at hm
  obtain ⟨⟨hh, hi⟩, he⟩ := hm
  split at hf
  · rename_i w' ws hp
    cases hf
    refine ⟨hh, hi, ?_, ⟨ws, hp⟩, rfl⟩
    rcases he with he | he
    · exact .inl he
    · right; cases hc : s.env with
      | nil => simp [hc] at he
      | cons m rest => simp [hc] at he; rw [he]; rfl
  · exact nomatch hf

/-- A step that fetches is the turn that accepts the command, and then the running of its path. -/
theorem step_of_fetch {s s' : State} {w : CmdWord} {i : Instr} (hf : s.fetch = some (w, s'))
    (hd : decode w = .command i) : step s = (turn s).andThen resume ∧ turn s = accept i (commandPath i) s' := by
  obtain ⟨hh, hi, he, ⟨ws, hp⟩, hs'⟩ := fetch_eq_some hf
  have ht : turn s = accept i (commandPath i) s' := by
    rw [hs']
    rcases he with he | he
    · have hw : s.waiting = false := by simp [State.waiting, hi]
      have hs : ({ s.takeWord with env := s.env.tail } : State) = s.takeWord := by
        have : s.env.tail = s.takeWord.env := by simp [State.takeWord, he]
        rw [this]
      rw [hs, ← seqTurn_accept hi hp hd]
      simp [turn, he, hh, hw]
    · have hs : ({ s.takeWord with env := s.env.tail } : State) = State.takeWord { s with env := s.env.tail } :=
        (s.takeWord_with_env _).symm
      rw [hs, ← seqTurn_accept (s := { s with env := s.env.tail }) (w := w) (ws := ws) (by simpa using hi) (by simpa using hp) hd]
      have hm : turn s = agentTurn .seq { s with env := s.env.tail } := by
        unfold turn; split
        · rename_i heq; rw [heq] at he; cases he; simp [heq]
        · rename_i heq; rw [heq] at he; exact nomatch he
      rw [hm]
      simp [agentTurn, hh]
  refine ⟨?_, ht⟩
  rw [ht, step, hf]
  simp only [hd, exec_eq_runCommand]
  rfl

/-- Say once what a step can do: a property kept by every turn is kept by every step. -/
theorem step_keeps {P : State → Prop} (hP : ∀ s t, P s → turn s = .next t → P t) {s t : State} (hs : P s)
    (h : step s = .next t) : P t := by
  cases hf : s.fetch with
  | some p =>
    obtain ⟨w, s'⟩ := p
    cases hd : decode w with
    | command i =>
      rw [(step_of_fetch hf hd).1] at h
      obtain ⟨u, hu, ht⟩ := Result.andThen_eq_next h
      exact drive_keeps hP _ _ u t (hP s u hs hu) ht
    | invalid r => simp [step, hf, hd] at h
  | none =>
    simp only [step, hf, otherTurn] at h
    split at h
    · exact hP s t hs h
    · exact drive_keeps hP _ _ s t hs h

/-- A property that acceptance and every turn keep is kept by every command. -/
theorem exec_keeps {P : State → Prop} (hA : ∀ i s t, P s → accept i (commandPath i) s = .next t → P t)
    (hP : ∀ s t, P s → turn s = .next t → P t) {i : Instr} {s t : State} (hs : P s) (h : exec i s = .next t) : P t := by
  rw [exec_eq_runCommand, runCommand] at h
  obtain ⟨u, hu, ht⟩ := Result.andThen_eq_next h
  exact drive_keeps hP _ _ u t (hA i s u hs hu) ht

/-- What acceptance does, if it accepts (30_encoding.md R61). -/
theorem accept_eq_next {i : Instr} {path : List Micro} {s t : State} (h : accept i path s = .next t) :
    s.halt = false ∧ (s.bank s.ctx).ph = [] ∧
      t = s.setBank s.ctx { s.bank s.ctx with cmd := i.code, addr := i.addr, wdata := i.data, ph := path } := by
  simp only [accept] at h
  split_ifs at h with h1 h2 h3
  exact ⟨by simpa using h1, by simpa using h2, by cases h; rfl⟩

/-- Say once what a turn can do: `who` is the head of the environment's list, if it has one, and `s` the state with the list
moved on. -/
inductive Did (who : Option Move) (s : State) : State → Prop where
  | nothing : Did who s s
  | op (m : Micro) (rest : List Micro) (t : State) (by_ : who = none ∨ who = some .seq) (ph : (s.bank s.ctx).ph = m :: rest)
      (halt : s.halt = false) (run : runOp s.ctx m.op rest s = .next t) : Did who s t
  | accepted (i : Instr) (w : CmdWord) (t : State) (by_ : who = none ∨ who = some .seq) (idle : (s.bank s.ctx).ph = [])
      (offer : (s.bank s.ctx).port = w :: (s.bank s.ctx).port.tail) (word : decode w = .command i)
      (run : accept i (commandPath i) s.takeWord = .next t) : Did who s t
  | returned (by_ : who = none ∨ who = some .seq) (ctx : s.ctx = .irq) (halt : s.halt = false) (idle : s.irq.ph = [])
      (port : s.irq.port = []) : Did who s s.leaveHandler
  | entered (tick : Bool) (cmds : List CmdWord) (by_ : who = some (.intr tick cmds)) (may : s.mayInterrupt tick cmds = true) :
      Did who s (s.enterHandler cmds)
  | completed (by_ : who = none ∨ who = some .bus) (pending : s.xferPending = true) : Did who s s.completeTransfer
  | configured (by_ : who = some .configure) : Did who s { s with busReady := true }
  | ieWritten (v : Bool) (by_ : who = some (.ieWrite v)) (halt : s.halt = false) (ctx : s.ctx = .main) (idle : s.main.ph = []) :
      Did who s { s with ie := v }
  | tickWritten (v : Bool) (by_ : who = some (.tickWrite v)) : Did who s { s with tickEn := v }
  | wasReset (by_ : who = some .reset) : Did who s s.resetNow

theorem seqTurn_did {s t : State} {who : Option Move} (hw : who = none ∨ who = some .seq) (hh : s.halt = false)
    (h : seqTurn s = .next t) : Did who s t := by
  unfold seqTurn at h
  split at h
  · rename_i m rest hp; exact .op m rest t hw hp hh h
  · rename_i hp
    split at h
    · rename_i w ws hq
      split at h
      · rename_i i hd; exact .accepted i w t hw hp (by simp [hq]) hd h
      · exact nomatch h
    · rename_i hq
      split at h
      · rename_i hc; cases h
        exact .returned hw hc hh (by simpa [State.bank, hc] using hp) (by simpa [State.bank, hc] using hq)
      · cases h; exact .nothing

theorem turn_did {s t : State} (h : turn s = .next t) : Did s.env.head? { s with env := s.env.tail } t := by
  unfold turn at h
  split at h
  · rename_i m rest he
    rw [he, List.tail_cons, List.head?_cons]
    cases m with
    | seq =>
      simp only [agentTurn] at h
      split_ifs at h with hh
      · cases h; exact .nothing
      · exact seqTurn_did (.inr rfl) (by simpa using hh) h
    | intr tick cmds =>
      simp only [agentTurn] at h
      cases h; split_ifs with hm
      · exact .entered tick cmds rfl hm
      · exact .nothing
    | bus =>
      simp only [agentTurn] at h
      cases h; split_ifs with hm
      · exact .completed (.inr rfl) hm
      · exact .nothing
    | configure => cases h; exact .configured rfl
    | ieWrite v =>
      simp only [agentTurn] at h
      cases h; split_ifs with hm
      · simp only [Bool.and_eq_true, Bool.not_eq_true', decide_eq_true_eq] at hm
        exact .ieWritten v rfl hm.1.1 hm.1.2 hm.2
      · exact .nothing
    | tickWrite v => cases h; exact .tickWritten v rfl
    | reset => cases h; exact .wasReset rfl
  · rename_i he
    have hs : ({ s with env := s.env.tail } : State) = s := by
      have : s.env.tail = s.env := by rw [he]; rfl
      rw [this]
    rw [hs, he]
    split_ifs at h with hh hw
    · simp only [Bool.and_eq_true, State.busWillComplete] at hw
      cases h
      exact .completed (.inl rfl) hw.2.1.1
    · exact seqTurn_did (.inl rfl) (by simpa using hh) h

/-- What a micro-step can do (40_critical_section.md R80, R83, R86, R88; 41_bus_transport.md R100, R103, R107). -/
theorem runOp_eq_next {c : Ctx} {o : Op} {rest : List Micro} {s t : State} (h : runOp c o rest s = .next t) :
    (s.ordinary o = true ∧ t = (effect c s o).advance c rest) ∨
    (o = .e3 ∧ s.nc = 255 ∧ t = s.raise .overflow) ∨
    (o = .l3 ∧ s.nc = 0 ∧ t = (s.raise .underflow).advance c (afterUnderflow rest)) ∨
    (o = .x3 ∧ s.xferDone = false ∧ t = s) := by
  unfold runOp at h
  split_ifs at h with ho
  · cases h; exact .inl ⟨ho, rfl⟩
  · cases o <;> simp only [State.ordinary, decide_eq_true_eq, not_true_eq_false] at ho <;> simp only [otherWay] at h
    · cases h
      refine .inr (.inl ⟨rfl, ?_, rfl⟩)
      have := s.nc.isLt
      exact BitVec.eq_of_toNat_eq (by simp; omega)
    · cases h
      refine .inr (.inr (.inl ⟨rfl, ?_, rfl⟩))
      exact BitVec.eq_of_toNat_eq (by simp; omega)
    · exact nomatch h
    · cases h
      exact .inr (.inr (.inr ⟨rfl, by simpa using ho, rfl⟩))

end Sys2Proof.Machine
end

