-- ==== Sys2Proof/Laws/Effect.lean ====
section
/-! SUPPORT. What a micro-step writes, field by field: one lemma per piece of state, for every micro-step at once; and the order
in which micro-steps follow one another on a command's path. -/

namespace Sys2Proof.Machine

/-! ### Going on along the path changes the phase and what a completion presents, nothing else -/

@[simp] theorem State.advance_nc (s : State) (c : Ctx) (l : List Micro) : (s.advance c l).nc = s.nc := by
  cases l <;> cases c <;> rfl
@[simp] theorem State.advance_ie (s : State) (c : Ctx) (l : List Micro) : (s.advance c l).ie = s.ie := by
  cases l <;> cases c <;> rfl
@[simp] theorem State.advance_tickEn (s : State) (c : Ctx) (l : List Micro) : (s.advance c l).tickEn = s.tickEn := by
  cases l <;> cases c <;> rfl
@[simp] theorem State.advance_csN (s : State) (c : Ctx) (l : List Micro) : (s.advance c l).csN = s.csN := by
  cases l <;> cases c <;> rfl
@[simp] theorem State.advance_ctx (s : State) (c : Ctx) (l : List Micro) : (s.advance c l).ctx = s.ctx := by
  cases l <;> cases c <;> rfl
@[simp] theorem State.advance_halt (s : State) (c : Ctx) (l : List Micro) : (s.advance c l).halt = s.halt := by
  cases l <;> cases c <;> rfl
@[simp] theorem State.advance_dev (s : State) (c : Ctx) (l : List Micro) : (s.advance c l).dev = s.dev := by
  cases l <;> cases c <;> rfl
@[simp] theorem State.advance_xferDone (s : State) (c : Ctx) (l : List Micro) : (s.advance c l).xferDone = s.xferDone := by
  cases l <;> cases c <;> rfl
@[simp] theorem State.advance_xferPending (s : State) (c : Ctx) (l : List Micro) :
    (s.advance c l).xferPending = s.xferPending := by
  cases l <;> cases c <;> rfl
@[simp] theorem State.advance_env (s : State) (c : Ctx) (l : List Micro) : (s.advance c l).env = s.env := by
  cases l <;> cases c <;> rfl
@[simp] theorem State.advance_cfg (s : State) (c : Ctx) (l : List Micro) : (s.advance c l).cfg = s.cfg := by
  cases l <;> cases c <;> rfl
@[simp] theorem State.advance_bank (s : State) (c : Ctx) (l : List Micro) :
    (s.advance c l).bank c = { s.bank c with ph := l } := by
  cases l <;> cases c <;> rfl
theorem State.advance_bank_other (s : State) {c d : Ctx} (h : d ≠ c) (l : List Micro) : (s.advance c l).bank d = s.bank d := by
  cases l <;> cases c <;> cases d <;> first | rfl | exact absurd rfl h

/-! ### What a micro-step writes on its ordinary way -/

@[simp] theorem effect_ctx (c : Ctx) (s : State) (o : Op) : (effect c s o).ctx = s.ctx := by
  cases o <;> simp only [effect] <;> (try split) <;> simp [State.restore]

@[simp] theorem effect_halt (c : Ctx) (s : State) (o : Op) : (effect c s o).halt = s.halt := by
  cases o <;> simp only [effect] <;> (try split) <;> simp [State.restore]

@[simp] theorem effect_cfg (c : Ctx) (s : State) (o : Op) : (effect c s o).cfg = s.cfg := by
  cases o <;> simp only [effect] <;> (try split) <;> simp [State.restore]

@[simp] theorem effect_env (c : Ctx) (s : State) (o : Op) : (effect c s o).env = s.env := by
  cases o <;> simp only [effect] <;> (try split) <;> simp [State.restore]

/-- The registers of the issuing context that no micro-step writes. -/
theorem effect_kept (c : Ctx) (s : State) (o : Op) :
    ((effect c s o).bank c).ph = (s.bank c).ph ∧ ((effect c s o).bank c).cmd = (s.bank c).cmd ∧
      ((effect c s o).bank c).addr = (s.bank c).addr ∧ ((effect c s o).bank c).wdata = (s.bank c).wdata ∧
      ((effect c s o).bank c).port = (s.bank c).port := by
  cases o <;> simp only [effect] <;> (try split) <;> cases c <;>
    simp [State.bank, State.capture, State.setBank, State.restore, State.startTransfer, State.receive]

/-- A micro-step writes no register of the other context (10_state.md R18). -/
theorem effect_bank_other {c d : Ctx} (h : d ≠ c) (s : State) (o : Op) : (effect c s o).bank d = s.bank d := by
  cases o <;> simp only [effect] <;> (try split) <;> cases c <;> cases d <;>
    first
    | exact absurd rfl h
    | simp [State.bank, State.capture, State.setBank, State.restore, State.startTransfer, State.receive]

theorem effect_nc (c : Ctx) (s : State) (o : Op) :
    (effect c s o).nc = if o = .e3 then s.nc + 1 else if o = .l3 then s.nc - 1 else s.nc := by
  cases o with
  | e4 => simp only [effect, reduceCtorEq, if_false]; split <;> simp
  | l4 => simp only [effect, reduceCtorEq, if_false]; split <;> simp
  | i3 => simp only [effect, reduceCtorEq, if_false]; split <;> simp
  | _ => simp [effect, State.restore]

theorem effect_ie (c : Ctx) (s : State) (o : Op) :
    (effect c s o).ie = if o = .e2 ∨ o = .l2 then false else if o = .e5 ∨ o = .l5 then (s.bank c).snap else s.ie := by
  cases o with
  | e4 => simp only [effect, reduceCtorEq, or_self, if_false]; split <;> simp
  | l4 => simp only [effect, reduceCtorEq, or_self, if_false]; split <;> simp
  | i3 => simp only [effect, reduceCtorEq, or_self, if_false]; split <;> simp
  | _ => simp [effect, State.restore]

theorem effect_tickEn (c : Ctx) (s : State) (o : Op) :
    (effect c s o).tickEn =
      if o = .e4 ∧ s.nc = 1 then false else if o = .l4 ∧ s.nc = 0 then true else s.tickEn := by
  cases o with
  | e4 => simp only [effect, reduceCtorEq, true_and, false_and, if_false]; split <;> simp
  | l4 => simp only [effect, reduceCtorEq, true_and, false_and, if_false]; split <;> simp
  | i3 => simp only [effect, reduceCtorEq, false_and, if_false]; split <;> simp
  | _ => simp [effect, State.restore]

theorem effect_csN (c : Ctx) (s : State) (o : Op) :
    (effect c s o).csN =
      if o = .csHigh ∨ o = .i6 then true else if o = .csLow ∨ (o = .i3 ∧ s.cfg.initCsLow = true) then false else s.csN := by
  cases o with
  | e4 => simp only [effect, reduceCtorEq, false_and, or_self, if_false]; split <;> simp
  | l4 => simp only [effect, reduceCtorEq, false_and, or_self, if_false]; split <;> simp
  | i3 => simp only [effect, reduceCtorEq, or_self, if_false]; split <;> simp_all
  | _ => simp [effect, State.restore]

theorem effect_snap (c : Ctx) (s : State) (o : Op) :
    ((effect c s o).bank c).snap = if o = .e1 ∨ o = .l1 then s.ie else (s.bank c).snap := by
  cases o with
  | e4 => simp only [effect, reduceCtorEq, or_self, if_false]; split <;> simp
  | l4 => simp only [effect, reduceCtorEq, or_self, if_false]; split <;> simp
  | i3 => simp only [effect, reduceCtorEq, or_self, if_false]; split <;> simp
  | _ =>
    cases c <;>
      simp [effect, State.bank, State.capture, State.setBank, State.restore, State.startTransfer, State.receive]

/-- Only a `TXD` write touches the flags of the transfer (10_state.md R25, R27). -/
theorem effect_transfer (c : Ctx) (s : State) (o : Op) :
    ((effect c s o).xferDone = s.xferDone ∧ (effect c s o).xferPending = s.xferPending ∧ ∀ b, o ≠ .x2 b) ∨
      (∃ b, o = .x2 b) ∧ (effect c s o).xferDone = false ∧ (effect c s o).xferPending = true := by
  cases o <;> simp only [effect] <;> (try split) <;> simp [State.restore]

theorem effect_wf (c : Ctx) (s : State) (o : Op) (h : Memory.wf s.dev.mem = true) :
    Memory.wf (effect c s o).dev.mem = true := by
  have hw : ∀ v, Memory.wf (s.writeCs v).dev.mem = true := by
    intro v
    simp only [State.writeCs]
    split_ifs
    · exact h
    · exact Device.csRise_wf h _ _
    · exact h
  cases o <;> simp only [effect] <;> (try split) <;> (try simpa [State.restore] using h) <;> (try exact hw _)
  · simp only [State.endInit]; exact Device.initDone_wf (hw _) _ _

/-! ### The order of micro-steps -/

/-- What a micro-step that stands right after another says of the one before, and the other way round. -/
def Follows (m m' : Micro) : Prop :=
  (m'.op.masked = true → m.op = .e2 ∨ m.op = .l2 ∨ m.op = .e3 ∨ m.op = .e4 ∨ m.op = .l3 ∨ m.op = .l4) ∧
  (m'.op.captured = true → m.op = .e1 ∨ m.op = .l1) ∧ (m'.op = .x3 → ∃ b, m.op = .x2 b) ∧
  (m.op = .e3 → m'.op = .e4) ∧ (m.op = .l3 → m'.op = .l4) ∧ (m.op = .l4 → m'.op = .l5)

theorem commandPath_chain (i : Instr) : (commandPath i).IsChain Follows := by
  cases i <;>
    simp [commandPath, enterPath, leavePath, exchangePath, initPath, readPath, writePath, enterSteps, leaveSteps,
      exchangeSteps, Follows, Op.masked, Op.captured]

/-- A phase on a command's path keeps to that order. -/
theorem Bank.onPath_chain {b : Bank} (h : b.onPath) : b.ph.IsChain Follows := by
  rcases h with h | ⟨i, _, p, hp⟩
  · simp [h]
  · have := commandPath_chain i
    rw [← hp, List.isChain_append] at this
    exact this.2.1

end Sys2Proof.Machine
end

