-- ==== Sys2Proof/Laws/PerInstr.lean ====
section
/-! SUPPORT. The family `Fields`: the three fields of every command's word are its code and its operands, whole. -/

namespace Sys2Proof.Laws.Fields

open Sys2Proof

/-- The word of a command carries its code in bits 26 to 24, its address in bits 23 to 8 and its data in bits 7 to 0
(30_encoding.md R60, R62), and neither reserved code (R65). -/
def Statement (i : Instr) : Prop :=
  opField (encode i) = i.code ∧ addrField (encode i) = i.addr ∧ dataField (encode i) = i.data ∧ i.code ≠ 0 ∧ i.code ≠ 7

theorem fields (c : CmdCode) (a : Addr) (d : Byte) :
    opField (c ++ a ++ d : BitVec (3 + 16 + 8)) = c ∧ addrField (c ++ a ++ d : BitVec (3 + 16 + 8)) = a ∧
      dataField (c ++ a ++ d : BitVec (3 + 16 + 8)) = d := by
  refine ⟨?_, ?_, ?_⟩ <;> apply BitVec.eq_of_getLsbD_eq <;> intro j hj <;>
    simp only [opField, addrField, dataField, BitVec.getLsbD_extractLsb', BitVec.getLsbD_append]
  · have h1 : ¬ 24 + j < 8 := by omega
    have h2 : ¬ 24 + j - 8 < 16 := by omega
    have h3 : 24 + j - 8 - 16 = j := by omega
    simp [h1, h2, h3, hj]
  · have h1 : ¬ 8 + j < 8 := by omega
    have h2 : 8 + j - 8 < 16 := by omega
    have h3 : 8 + j - 8 = j := by omega
    simp [h3, hj]
  · simp [hj]

theorem of_code (i : Instr) (h : i.code ≠ 0 ∧ i.code ≠ 7) : Statement i :=
  ⟨(fields i.code i.addr i.data).1, (fields i.code i.addr i.data).2.1, (fields i.code i.addr i.data).2.2, h.1, h.2⟩

theorem enter (addr : Addr) (data : Byte) : Statement (.enter addr data) := of_code _ (by simp [Instr.code])

theorem leave (addr : Addr) (data : Byte) : Statement (.leave addr data) := of_code _ (by simp [Instr.code])

theorem exchange (addr : Addr) (data : Byte) : Statement (.exchange addr data) := of_code _ (by simp [Instr.code])

theorem init (addr : Addr) (data : Byte) : Statement (.init addr data) := of_code _ (by simp [Instr.code])

theorem read (addr : Addr) (data : Byte) : Statement (.read addr data) := of_code _ (by simp [Instr.code])

theorem write (addr : Addr) (data : Byte) : Statement (.write addr data) := of_code _ (by simp [Instr.code])

end Sys2Proof.Laws.Fields
end

