-- ==== Sys2Proof/Laws/Run.lean ====
section
/-! SUPPORT. Running an activation with no other agent's turn to come: one lemma per unit of a command's path. -/

namespace Sys2Proof.Machine

/-- The running context alone is at work, in a running block. -/
structure State.Alone (s : State) (c : Ctx) : Prop where
  env : s.env = []
  halt : s.halt = false
  ctx : s.ctx = c

theorem drive_settled {n : Nat} {c : Ctx} {s : State} (h : s.settled c = true) : drive n c s = .next s := by
  cases n <;> simp [drive, h]

@[simp] theorem State.advance_cons (s : State) (c : Ctx) (m : Micro) (rest : List Micro) :
    s.advance c (m :: rest) = s.setPh c (m :: rest) := rfl

@[simp] theorem State.advance_nil (s : State) (c : Ctx) : s.advance c [] = s.finish c := rfl

@[simp] theorem Result.next_andThen (s : State) (f : State → Result) : Result.andThen (.next s) f = f s := rfl

theorem State.setPh_advance (s : State) (c : Ctx) (l rest : List Micro) :
    (s.setPh c l).advance c rest = s.advance c rest := by
  cases rest <;> cases c <;> rfl

theorem State.setPh_self {s : State} {c : Ctx} {l : List Micro} (h : (s.bank c).ph = l) : s.setPh c l = s := by
  subst h; cases c <;> rfl

theorem State.Alone.setPh {s : State} {c : Ctx} (h : s.Alone c) (l : List Micro) : (s.setPh c l).Alone c :=
  ⟨by simp [h.env], by simp [h.halt], by simp [h.ctx]⟩

@[simp] theorem State.ordinary_setPh (s : State) (c : Ctx) (l : List Micro) (o : Op) :
    (s.setPh c l).ordinary o = s.ordinary o := by
  cases o <;> simp [State.ordinary]

theorem State.writeCs_setPh (s : State) (c : Ctx) (l : List Micro) (v : Bool) :
    (s.setPh c l).writeCs v = (s.writeCs v).setPh c l := by
  cases c <;> cases hn : s.csN <;> cases v <;> simp [State.writeCs, State.setPh, State.setBank, State.bank, hn]

theorem effect_setPh (s : State) (c : Ctx) (l : List Micro) (o : Op) :
    effect c (s.setPh c l) o = (effect c s o).setPh c l := by
  cases o with
  | e4 => simp only [effect, State.setPh_nc]; split <;> cases c <;> rfl
  | l4 => simp only [effect, State.setPh_nc]; split <;> cases c <;> rfl
  | i3 => simp only [effect, State.setPh_cfg]; split <;> first | exact State.writeCs_setPh .. | rfl
  | csHigh => exact State.writeCs_setPh ..
  | csLow => exact State.writeCs_setPh ..
  | i6 => simp only [effect, State.endInit, State.writeCs_setPh]; cases c <;> rfl
  | x2 b => cases b <;> cases c <;> rfl
  | _ => cases c <;> rfl

theorem State.Alone.effect {s : State} {c : Ctx} (h : s.Alone c) (o : Op) : (effect c s o).Alone c := by
  obtain ⟨he, hh, hc⟩ := h
  constructor <;> cases o <;> simp only [Machine.effect] <;> (try split) <;> simp [State.restore, he, hh, hc]

/-- A micro-step that goes its ordinary way, with no other agent at work. -/
theorem drive_effect {n k : Nat} {c : Ctx} {s : State} {o : Op} {rest : List Micro} (h : s.Alone c)
    (ho : s.ordinary o = true) :
    drive (n + 1) c (s.setPh c (⟨k, o⟩ :: rest)) = drive n c ((effect c s o).advance c rest) := by
  obtain ⟨he, hh, rfl⟩ := h
  have hx : o = .x3 → s.xferDone = true := by rintro rfl; exact ho
  have : (s.setPh s.ctx (⟨k, o⟩ :: rest)).waiting = false := by
    by_cases h : o = .x3 <;> simp [State.waiting, h, hx]
  simp [drive, State.settled, State.hung, this, turn, seqTurn, runOp, he, hh, ho, effect_setPh, State.setPh_advance]

/-- The busy-wait with a bus that completes. -/
theorem drive_wait {n k : Nat} {c : Ctx} {s : State} {rest : List Micro} (h : s.Alone c) (hd : s.xferDone = false)
    (hb : s.busWillComplete = true) :
    drive (n + 1) c (s.setPh c (⟨k, .x3⟩ :: rest)) = drive n c (s.completeTransfer.setPh c (⟨k, .x3⟩ :: rest)) := by
  obtain ⟨he, hh, rfl⟩ := h
  have hb' : (s.setPh s.ctx (⟨k, .x3⟩ :: rest)).busWillComplete = true := by
    simpa [State.busWillComplete] using hb
  have hc : (s.setPh s.ctx (⟨k, .x3⟩ :: rest)).completeTransfer = s.completeTransfer.setPh s.ctx (⟨k, .x3⟩ :: rest) := by
    cases s.ctx <;> rfl
  simp [drive, State.settled, State.hung, State.waiting, turn, he, hh, hd, hb', hc]

/-! ### The units of a path -/

theorem Count.toNat_lt_of_ne {n : Count} (h : n ≠ 255) : n.toNat < 255 := by
  have := n.isLt
  rcases Nat.lt_or_ge n.toNat 255 with h' | h'
  · exact h'
  · exact absurd (BitVec.eq_of_toNat_eq (by simp; omega)) h

theorem Count.toNat_pos_of_ne {n : Count} (h : n ≠ 0) : 0 < n.toNat := by
  rcases Nat.eq_zero_or_pos n.toNat with h' | h'
  · exact absurd (BitVec.eq_of_toNat_eq (by simpa using h')) h
  · exact h'

/-- What E1 to E5 leave, but for the phase, when `NC < 255` (40_critical_section.md R85). -/
def State.entered (s : State) (c : Ctx) : State :=
  { s.setBank c { s.bank c with snap := s.ie } with
    nc := s.nc + 1
    tickEn := if s.nc = 0 then false else s.tickEn
    trace := s.trace ++ enterEvents s.nc s.ie }

@[simp] theorem effect_nc_e1 (s : State) (c : Ctx) : (effect c s .e1).nc = s.nc := by simp [effect]
@[simp] theorem effect_nc_e2 (s : State) (c : Ctx) : (effect c s .e2).nc = s.nc := by simp [effect]
@[simp] theorem effect_nc_l1 (s : State) (c : Ctx) : (effect c s .l1).nc = s.nc := by simp [effect]
@[simp] theorem effect_nc_l2 (s : State) (c : Ctx) : (effect c s .l2).nc = s.nc := by simp [effect]

theorem drive_enter {n k : Nat} {c : Ctx} {s : State} {rest : List Micro} (h : s.Alone c) (hn : s.nc ≠ 255) :
    drive (n + 5) c (s.setPh c (enterSteps k ++ rest)) = drive n c ((s.entered c).advance c rest) := by
  have hn' := Count.toNat_lt_of_ne hn
  have h1 : s.nc + 1#8 = 1#8 ↔ s.nc = 0#8 := by constructor <;> intro h <;> bv_omega
  simp only [enterSteps, List.cons_append, List.nil_append]
  rw [drive_effect h rfl, State.advance_cons, drive_effect (h.effect _) rfl, State.advance_cons,
    drive_effect ((h.effect _).effect _) (by simpa [State.ordinary] using hn'),
    State.advance_cons, drive_effect (((h.effect _).effect _).effect _) rfl, State.advance_cons,
    drive_effect ((((h.effect _).effect _).effect _).effect _) rfl]
  congr 2
  by_cases h0 : s.nc = 0#8 <;> cases c <;>
    simp [effect, State.restore, State.capture, State.writeIe, State.writeNc, State.writeTick, State.setBank, State.bank,
      State.entered, enterEvents, h1, h0]

/-- What L1 to L5 leave, but for the phase, when `NC > 0` (40_critical_section.md R89). -/
def State.left (s : State) (c : Ctx) : State :=
  { s.setBank c { s.bank c with snap := s.ie } with
    nc := s.nc - 1
    tickEn := if s.nc = 1 then true else s.tickEn
    trace := s.trace ++ leaveEvents s.nc s.ie }

theorem drive_leave {n k : Nat} {c : Ctx} {s : State} {rest : List Micro} (h : s.Alone c) (hn : s.nc ≠ 0) :
    drive (n + 5) c (s.setPh c (leaveSteps k ++ rest)) = drive n c ((s.left c).advance c rest) := by
  have hn' := Count.toNat_pos_of_ne hn
  have h0 : s.nc ≠ 0#8 := hn
  have h1 : s.nc - 1#8 = 0#8 ↔ s.nc = 1#8 := by constructor <;> intro h <;> bv_omega
  simp only [leaveSteps, List.cons_append, List.nil_append]
  rw [drive_effect h rfl, State.advance_cons, drive_effect (h.effect _) rfl, State.advance_cons,
    drive_effect ((h.effect _).effect _) (by simpa [State.ordinary] using hn'),
    State.advance_cons, drive_effect (((h.effect _).effect _).effect _) rfl, State.advance_cons,
    drive_effect ((((h.effect _).effect _).effect _).effect _) rfl]
  congr 2
  by_cases h1' : s.nc = 1#8 <;> cases c <;>
    simp [effect, State.restore, State.capture, State.writeIe, State.writeNc, State.writeTick, State.setBank, State.bank,
      State.left, leaveEvents, h1, h1', h0]

/-- What an exchange of `v` leaves, but for the phase, when `NC < 255` (41_bus_transport.md R100, R111). -/
def State.exchanged (s : State) (c : Ctx) (v : Byte) : State :=
  { s.setBank c { s.bank c with snap := s.ie, outb := v, inb := s.exchangeReply c v } with
    tickEn := if s.nc = 0 then true else s.tickEn
    txd := v
    rxd := s.exchangeReply c v
    xferDone := true
    xferPending := false
    txOwner := c
    txReady := s.busReady
    dev := s.exchangeDevice c v
    draws := s.draws + 1
    trace := s.trace ++ exchangeEvents s.nc s.ie v (s.exchangeReply c v) }

theorem State.Alone.entered {s : State} {c : Ctx} (h : s.Alone c) : (s.entered c).Alone c :=
  ⟨by simp [State.entered, h.env], by simp [State.entered, h.halt], by simp [State.entered, h.ctx]⟩

theorem State.Alone.completeTransfer {s : State} {c : Ctx} (h : s.Alone c) : s.completeTransfer.Alone c :=
  ⟨by simp [h.env], by simp [h.halt], by simp [h.ctx]⟩

theorem drive_exchange {n k : Nat} {c : Ctx} {s : State} {b : ByteSrc} {rest : List Micro} (h : s.Alone c) (hn : s.nc ≠ 255)
    (hf : s.cfg.busFair = true) (hr : s.busReady = true) (hp : s.xferPending = false) :
    drive (n + 14) c (s.setPh c (exchangeSteps k b ++ rest)) =
      drive n c ((s.exchanged c (b.value s.cfg (s.bank c))).advance c rest) := by
  have hv : b.value (s.entered c).cfg ((s.entered c).bank c) = b.value s.cfg (s.bank c) := by
    cases b <;> cases c <;> rfl
  have h1 : s.nc + 1#8 ≠ 0#8 := fun h => hn (by bv_omega)
  have h2 : s.nc + 1#8 = 1#8 ↔ s.nc = 0#8 := by constructor <;> intro h <;> bv_omega
  have e := h.entered
  simp only [exchangeSteps, List.append_assoc, List.cons_append, List.nil_append]
  rw [show n + 14 = (n + 9) + 5 by omega, drive_enter h hn, State.advance_cons,
    drive_effect e (by simp [State.ordinary, State.entered, hp]), State.advance_cons,
    drive_wait (e.effect _) (by simp [effect]) (by simp [effect, State.busWillComplete, State.entered, hf, hr]),
    drive_effect (e.effect _).completeTransfer (by simp [State.ordinary]), State.advance_cons,
    drive_effect ((e.effect _).completeTransfer.effect _) rfl, show leaveSteps k = ⟨k, .l1⟩ :: (leaveSteps k).tail from rfl,
    List.cons_append, State.advance_cons, ← List.cons_append, ← show leaveSteps k = ⟨k, .l1⟩ :: (leaveSteps k).tail from rfl,
    drive_leave (((e.effect _).completeTransfer.effect _).effect _) (by simpa [effect, State.entered] using h1)]
  congr 2
  simp only [effect, hv]
  by_cases h0 : s.nc = 0#8 <;> cases c <;>
    simp [State.receive, State.completeTransfer, State.startTransfer, State.entered, State.left, State.exchanged,
      State.setBank, State.bank, State.exchangeReply, State.exchangeDevice, exchangeEvents, h2, h0]

/-! ### A frame: exchanges one after another, inside a transaction -/

@[simp] theorem State.entered_nc (s : State) (c : Ctx) : (s.entered c).nc = s.nc + 1 := rfl
@[simp] theorem State.entered_ie (s : State) (c : Ctx) : (s.entered c).ie = s.ie := by simp [State.entered]
@[simp] theorem State.entered_cfg (s : State) (c : Ctx) : (s.entered c).cfg = s.cfg := by simp [State.entered]
@[simp] theorem State.entered_csN (s : State) (c : Ctx) : (s.entered c).csN = s.csN := by simp [State.entered]
@[simp] theorem State.entered_dev (s : State) (c : Ctx) : (s.entered c).dev = s.dev := by simp [State.entered]
@[simp] theorem State.entered_draws (s : State) (c : Ctx) : (s.entered c).draws = s.draws := by simp [State.entered]
@[simp] theorem State.entered_busReady (s : State) (c : Ctx) : (s.entered c).busReady = s.busReady := by simp [State.entered]
@[simp] theorem State.entered_xferPending (s : State) (c : Ctx) : (s.entered c).xferPending = s.xferPending := by
  simp [State.entered]
@[simp] theorem State.entered_value (s : State) (c : Ctx) (b : ByteSrc) :
    b.value s.cfg ((s.entered c).bank c) = b.value s.cfg (s.bank c) := by
  cases b <;> cases c <;> rfl

@[simp] theorem State.exchanged_nc (s : State) (c : Ctx) (v : Byte) : (s.exchanged c v).nc = s.nc := by simp [State.exchanged]
@[simp] theorem State.exchanged_ie (s : State) (c : Ctx) (v : Byte) : (s.exchanged c v).ie = s.ie := by simp [State.exchanged]
@[simp] theorem State.exchanged_cfg (s : State) (c : Ctx) (v : Byte) : (s.exchanged c v).cfg = s.cfg := by
  simp [State.exchanged]
@[simp] theorem State.exchanged_csN (s : State) (c : Ctx) (v : Byte) : (s.exchanged c v).csN = s.csN := by
  simp [State.exchanged]
@[simp] theorem State.exchanged_draws (s : State) (c : Ctx) (v : Byte) : (s.exchanged c v).draws = s.draws + 1 := rfl
@[simp] theorem State.exchanged_busReady (s : State) (c : Ctx) (v : Byte) : (s.exchanged c v).busReady = s.busReady := by
  simp [State.exchanged]
@[simp] theorem State.exchanged_xferPending (s : State) (c : Ctx) (v : Byte) : (s.exchanged c v).xferPending = false := rfl
@[simp] theorem State.exchanged_value (s : State) (c : Ctx) (v : Byte) (b : ByteSrc) :
    b.value s.cfg ((s.exchanged c v).bank c) = b.value s.cfg (s.bank c) := by
  cases b <;> cases c <;> rfl

theorem State.Alone.exchanged {s : State} {c : Ctx} (h : s.Alone c) (v : Byte) : (s.exchanged c v).Alone c :=
  ⟨by simp [State.exchanged, h.env], by simp [State.exchanged, h.halt], by simp [State.exchanged, h.ctx]⟩

theorem State.Alone.left {s : State} {c : Ctx} (h : s.Alone c) : (s.left c).Alone c :=
  ⟨by simp [State.left, h.env], by simp [State.left, h.halt], by simp [State.left, h.ctx]⟩

/-- The path of exchanges of the bytes `bs`, the first in stage `k`. -/
def frameSteps (k : Nat) : List ByteSrc → List Micro
  | [] => []
  | b :: bs => exchangeSteps k b ++ frameSteps (k + 1) bs

/-- What the exchanges of the bytes `vs` leave, but for the phase. -/
def State.framed (s : State) (c : Ctx) : List Byte → State
  | [] => s
  | v :: vs => (s.exchanged c v).framed c vs

theorem State.Alone.framed {c : Ctx} : ∀ {s : State} (_ : s.Alone c) (vs : List Byte), (s.framed c vs).Alone c
  | _, h, [] => h
  | _, h, v :: vs => (h.exchanged v).framed vs

theorem drive_frame {c : Ctx} : ∀ {n k : Nat} {s : State} {bs : List ByteSrc} {m : Micro} {rest : List Micro}
    (_ : s.Alone c) (_ : s.nc ≠ 255) (_ : s.cfg.busFair = true) (_ : s.busReady = true) (_ : s.xferPending = false),
    drive (n + 14 * bs.length) c (s.setPh c (frameSteps k bs ++ m :: rest)) =
      drive n c ((s.framed c (bs.map fun b => b.value s.cfg (s.bank c))).setPh c (m :: rest))
  | _, _, _, [], _, _, _, _, _, _, _ => rfl
  | n, k, s, b :: bs, m, rest, h, hn, hf, hr, hp => by
    have hcons : ∀ l : List Micro, ∃ m' l', l ++ m :: rest = m' :: l' := fun l => by cases l <;> exact ⟨_, _, rfl⟩
    obtain ⟨m', l', hm⟩ := hcons (frameSteps (k + 1) bs)
    rw [frameSteps, List.append_assoc, show n + 14 * (b :: bs).length = (n + 14 * bs.length) + 14 by simp; omega,
      drive_exchange h hn hf hr hp, hm, State.advance_cons, ← hm,
      drive_frame (h.exchanged _) (by simpa using hn) (by simpa using hf) (by simpa using hr) (by simp)]
    simp [State.framed]

/-! ### A whole command -/

/-- The state after acceptance, but for the phase (30_encoding.md R61). -/
def State.staged (s : State) (i : Instr) : State :=
  s.setBank s.ctx { s.bank s.ctx with cmd := i.code, addr := i.addr, wdata := i.data }

theorem State.Quiet.alone {s : State} (h : s.Quiet) (i : Instr) : (s.staged i).Alone s.ctx :=
  ⟨by simp [State.staged, h.env], by simp [State.staged, h.halt], by simp [State.staged]⟩

/-- Running a command alone: its path, with as many turns as it may need. -/
theorem runCommand_quiet {s : State} (h : s.Quiet) (i : Instr) (path : List Micro) (m : Nat) (hm : m ≤ 2 * path.length) :
    ∃ n, runCommand i path s = drive (n + m) s.ctx ((s.staged i).setPh s.ctx path) := by
  have hc : s.cfg.wellFormed = true := by simpa [Config.wellFormed] using h.cfg
  have ha : accept i path s = .next ((s.staged i).setPh s.ctx path) := by
    simp only [accept, h.halt, h.idle, hc]
    cases hx : s.ctx <;> simp [State.staged, State.setPh, State.setBank, State.bank, hx]
  have hctx : ((s.staged i).setPh s.ctx path).ctx = s.ctx := by simp [State.staged]
  have hw : m ≤ ((s.staged i).setPh s.ctx path).work := by
    cases hc : s.ctx <;> simp [State.work, State.staged, State.setPh, State.setBank, hc] <;> omega
  obtain ⟨n, hn⟩ := Nat.exists_eq_add_of_le' hw
  exact ⟨n, by simp only [runCommand, ha, Result.next_andThen, resume, hctx, hn]⟩

/-- A finished activation is settled. -/
theorem drive_finish (n : Nat) (c : Ctx) (s : State) : drive n c (s.finish c) = .next (s.finish c) :=
  drive_settled (by simp [State.settled])

/-! ### Halting in Overflow, and Underflow -/

/-- What E1, E2 and a failing E3 leave (40_critical_section.md R83). -/
def State.overflowed (s : State) (c : Ctx) (l : List Micro) : State :=
  { s.setBank c { s.bank c with snap := s.ie, ph := l } with
    ie := false
    halt := true
    trace := s.trace ++ [.ie false, .fatal .overflow] }

theorem drive_overflow {n k : Nat} {c : Ctx} {s : State} {rest : List Micro} (h : s.Alone c) (hn : s.nc = 255) :
    drive (n + 3) c (s.setPh c (enterSteps k ++ rest)) = .next (s.overflowed c ((enterSteps k ++ rest).drop 2)) := by
  simp only [enterSteps, List.cons_append, List.nil_append]
  rw [drive_effect h rfl, State.advance_cons, drive_effect (h.effect _) rfl, State.advance_cons]
  obtain ⟨he, hh, rfl⟩ := h
  rw [drive]
  simp only [State.settled, State.hung, State.waiting, turn, seqTurn, runOp, State.ordinary, otherWay, State.raise]
  cases hc : s.ctx <;>
    simp [effect, State.capture, State.writeIe, State.setPh, State.setBank, State.bank, State.emit, State.overflowed, he, hh, hn, hc] <;>
    (rw [drive_settled]; simp [State.settled])

/-- What L1, L2, a failing L3 and L5 leave, but for the phase (40_critical_section.md R88). -/
def State.underflowed (s : State) (c : Ctx) : State :=
  { s.setBank c { s.bank c with snap := s.ie } with
    trace := s.trace ++ [.ie false, .err .underflow, .ie s.ie] }

theorem drive_underflow {n k : Nat} {c : Ctx} {s : State} {rest : List Micro} (h : s.Alone c) (hn : s.nc = 0) :
    drive (n + 4) c (s.setPh c (leaveSteps k ++ rest)) = drive n c ((s.underflowed c).advance c rest) := by
  simp only [leaveSteps, List.cons_append, List.nil_append]
  rw [drive_effect h rfl, State.advance_cons, drive_effect (h.effect _) rfl, State.advance_cons]
  have key : drive (n + 2) c ((effect c (effect c s .l1) .l2).setPh c (⟨k, .l3⟩ :: ⟨k, .l4⟩ :: ⟨k, .l5⟩ :: rest)) =
      drive (n + 1) c (((effect c (effect c s .l1) .l2).raise .underflow).setPh c (⟨k, .l5⟩ :: rest)) := by
    obtain ⟨he, hh, rfl⟩ := h
    rw [drive]
    simp only [State.settled, State.hung, State.waiting, turn, seqTurn, runOp, State.ordinary, otherWay, State.raise,
      afterUnderflow]
    cases hc : s.ctx <;>
      simp [effect, State.capture, State.writeIe, State.setPh, State.setBank, State.bank, State.emit, he, hh, hn, hc]
  have h3 : ((effect c (effect c s .l1) .l2).raise .underflow).Alone c := by
    have := (h.effect (.l1)).effect .l2
    exact ⟨this.env, this.halt, this.ctx⟩
  rw [key, drive_effect h3 rfl]
  congr 2
  cases c <;> simp [effect, State.restore, State.capture, State.writeIe, State.setBank, State.bank, State.raise, State.emit,
    State.underflowed]

end Sys2Proof.Machine
end

