-- ==== Sys2Proof/Laws/Transactions.lean ====
section
/-! SUPPORT. The three transactions' paths, run from their first micro-step to their end with no other agent's turn to come and
a bus that completes. -/

namespace Sys2Proof.Machine

theorem Count.transaction {n : Count} (h : n.toNat ≤ 253) : n ≠ 255 ∧ n + 1 ≠ 255 ∧ n + 1 ≠ 0 := by
  refine ⟨?_, ?_, ?_⟩ <;> intro e <;> bv_omega

/-! ### What the units leave, field by field -/

section
variable (s : State) (c d : Ctx) (v : Byte) (i : Instr)

@[simp] theorem State.entered_trace : (s.entered c).trace = s.trace ++ enterEvents s.nc s.ie := rfl
@[simp] theorem State.entered_tickEn : (s.entered c).tickEn = if s.nc = 0 then false else s.tickEn := rfl
@[simp] theorem State.entered_ctx : (s.entered c).ctx = s.ctx := by cases c <;> rfl
@[simp] theorem State.entered_halt : (s.entered c).halt = s.halt := by cases c <;> rfl
@[simp] theorem State.entered_env : (s.entered c).env = s.env := by cases c <;> rfl
@[simp] theorem State.entered_bank : (s.entered c).bank c = { s.bank c with snap := s.ie } := by cases c <;> rfl
@[simp] theorem State.exchanged_trace :
    (s.exchanged c v).trace = s.trace ++ exchangeEvents s.nc s.ie v (s.exchangeReply c v) := rfl
@[simp] theorem State.exchanged_tickEn : (s.exchanged c v).tickEn = if s.nc = 0 then true else s.tickEn := rfl
@[simp] theorem State.exchanged_ctx : (s.exchanged c v).ctx = s.ctx := by cases c <;> rfl
@[simp] theorem State.exchanged_halt : (s.exchanged c v).halt = s.halt := by cases c <;> rfl
@[simp] theorem State.exchanged_env : (s.exchanged c v).env = s.env := by cases c <;> rfl
@[simp] theorem State.exchanged_txd : (s.exchanged c v).txd = v := rfl
@[simp] theorem State.exchanged_rxd : (s.exchanged c v).rxd = s.exchangeReply c v := rfl
@[simp] theorem State.exchanged_xferDone : (s.exchanged c v).xferDone = true := rfl
@[simp] theorem State.exchanged_dev : (s.exchanged c v).dev = s.exchangeDevice c v := rfl
@[simp] theorem State.exchanged_bank :
    (s.exchanged c v).bank c = { s.bank c with snap := s.ie, outb := v, inb := s.exchangeReply c v } := by cases c <;> rfl
@[simp] theorem State.left_nc : (s.left c).nc = s.nc - 1 := rfl
@[simp] theorem State.left_trace : (s.left c).trace = s.trace ++ leaveEvents s.nc s.ie := rfl
@[simp] theorem State.left_tickEn : (s.left c).tickEn = if s.nc = 1 then true else s.tickEn := rfl
@[simp] theorem State.left_ie : (s.left c).ie = s.ie := by cases c <;> rfl
@[simp] theorem State.left_cfg : (s.left c).cfg = s.cfg := by cases c <;> rfl
@[simp] theorem State.left_csN : (s.left c).csN = s.csN := by cases c <;> rfl
@[simp] theorem State.left_dev : (s.left c).dev = s.dev := by cases c <;> rfl
@[simp] theorem State.left_ctx : (s.left c).ctx = s.ctx := by cases c <;> rfl
@[simp] theorem State.left_halt : (s.left c).halt = s.halt := by cases c <;> rfl
@[simp] theorem State.left_env : (s.left c).env = s.env := by cases c <;> rfl
@[simp] theorem State.left_txd : (s.left c).txd = s.txd := by cases c <;> rfl
@[simp] theorem State.left_rxd : (s.left c).rxd = s.rxd := by cases c <;> rfl
@[simp] theorem State.left_xferDone : (s.left c).xferDone = s.xferDone := by cases c <;> rfl
@[simp] theorem State.left_xferPending : (s.left c).xferPending = s.xferPending := by cases c <;> rfl
@[simp] theorem State.left_busReady : (s.left c).busReady = s.busReady := by cases c <;> rfl
@[simp] theorem State.left_draws : (s.left c).draws = s.draws := by cases c <;> rfl
@[simp] theorem State.left_bank : (s.left c).bank c = { s.bank c with snap := s.ie } := by cases c <;> rfl

@[simp] theorem State.staged_nc : (s.staged i).nc = s.nc := by simp [State.staged]
@[simp] theorem State.staged_ie : (s.staged i).ie = s.ie := by simp [State.staged]
@[simp] theorem State.staged_tickEn : (s.staged i).tickEn = s.tickEn := by simp [State.staged]
@[simp] theorem State.staged_csN : (s.staged i).csN = s.csN := by simp [State.staged]
@[simp] theorem State.staged_dev : (s.staged i).dev = s.dev := by simp [State.staged]
@[simp] theorem State.staged_cfg : (s.staged i).cfg = s.cfg := by simp [State.staged]
@[simp] theorem State.staged_ctx : (s.staged i).ctx = s.ctx := by simp [State.staged]
@[simp] theorem State.staged_halt : (s.staged i).halt = s.halt := by simp [State.staged]
@[simp] theorem State.staged_env : (s.staged i).env = s.env := by simp [State.staged]
@[simp] theorem State.staged_trace : (s.staged i).trace = s.trace := by simp [State.staged]
@[simp] theorem State.staged_draws : (s.staged i).draws = s.draws := by simp [State.staged]
@[simp] theorem State.staged_busReady : (s.staged i).busReady = s.busReady := by simp [State.staged]
@[simp] theorem State.staged_xferPending : (s.staged i).xferPending = s.xferPending := by simp [State.staged]
@[simp] theorem State.staged_bank :
    (s.staged i).bank s.ctx = { s.bank s.ctx with cmd := i.code, addr := i.addr, wdata := i.data } := by
  cases h : s.ctx <;> simp [State.staged, State.setBank, State.bank, h]

theorem State.entered_bank_other (h : d ≠ c) : (s.entered c).bank d = s.bank d := by
  cases c <;> cases d <;> first | rfl | exact absurd rfl h
theorem State.exchanged_bank_other (h : d ≠ c) : (s.exchanged c v).bank d = s.bank d := by
  cases c <;> cases d <;> first | rfl | exact absurd rfl h
theorem State.left_bank_other (h : d ≠ c) : (s.left c).bank d = s.bank d := by
  cases c <;> cases d <;> first | rfl | exact absurd rfl h

end

/-! ### The paths of the transactions -/

@[simp] theorem State.framed_nc (c : Ctx) : ∀ (s : State) (vs : List Byte), (s.framed c vs).nc = s.nc
  | _, [] => rfl
  | s, v :: vs => by simp [State.framed, State.framed_nc c]

@[simp] theorem State.framed_cfg (c : Ctx) : ∀ (s : State) (vs : List Byte), (s.framed c vs).cfg = s.cfg
  | _, [] => rfl
  | s, v :: vs => by simp [State.framed, State.framed_cfg c]

/-- What T0 to T6, or W0 to W6, leave of a transaction that sends the frame `vs`, but for the phase. -/
def State.selected (s : State) (c : Ctx) (vs : List Byte) : State := ((s.entered c).writeCs false).framed c vs

/-- The bytes of a read frame (30_encoding.md R67). -/
def State.readFrame (s : State) (c : Ctx) : List Byte :=
  [s.cfg.opRead, s.cfg.opExt, addrHighByte (s.bank c).addr, addrLowByte (s.bank c).addr, sentinelByte]

/-- The bytes of a write frame (30_encoding.md R68). -/
def State.writeFrame (s : State) (c : Ctx) : List Byte :=
  [s.cfg.opWrite, s.cfg.opExt, addrHighByte (s.bank c).addr, addrLowByte (s.bank c).addr, (s.bank c).wdata]

theorem drive_readPath {n : Nat} {c : Ctx} {s : State} (h : s.Alone c) (hn : s.nc.toNat ≤ 253) (hf : s.cfg.busFair = true)
    (hr : s.busReady = true) (hp : s.xferPending = false) :
    drive (n + 83) c (s.setPh c readPath) =
      .next ((((effect c (s.selected c (s.readFrame c)) .t6).writeCs true).left c).finish c) := by
  obtain ⟨h0, h1, h2⟩ := Count.transaction hn
  have ha := h.entered.effect .csLow
  have hb := ha.framed (s.readFrame c)
  refine (drive_enter (n := n + 78) (k := 0) h h0).trans <| (drive_effect (n := n + 77) (k := 1) h.entered rfl).trans <|
    (drive_frame (n := n + 7) (k := 2) (bs := [.opRead, .opExt, .addrHi, .addrLo, .sentinel]) ha (by simpa [effect] using h1)
      (by simpa [effect] using hf) (by simpa [effect] using hr) (by simpa [effect] using hp)).trans ?_
  have e : ([ByteSrc.opRead, .opExt, .addrHi, .addrLo, .sentinel].map fun b =>
      b.value (effect c (s.entered c) .csLow).cfg ((effect c (s.entered c) .csLow).bank c)) = s.readFrame c := by
    simp only [List.map_cons, List.map_nil, effect, State.writeCs_cfg, State.writeCs_bank, State.entered_cfg,
      State.entered_value]
    rfl
  rw [e]
  refine (drive_effect (k := 6) hb rfl).trans <| (drive_effect (k := 7) (hb.effect .t6) rfl).trans <|
    (drive_leave (k := 8) (rest := []) ((hb.effect .t6).effect .csHigh) (by simpa [effect] using h2)).trans ?_
  rw [State.advance_nil, drive_finish]
  rfl

theorem drive_writePath {n : Nat} {c : Ctx} {s : State} (h : s.Alone c) (hn : s.nc.toNat ≤ 253) (hf : s.cfg.busFair = true)
    (hr : s.busReady = true) (hp : s.xferPending = false) :
    drive (n + 82) c (s.setPh c writePath) =
      .next ((((s.selected c (s.writeFrame c)).writeCs true).left c).finish c) := by
  obtain ⟨h0, h1, h2⟩ := Count.transaction hn
  have ha := h.entered.effect .csLow
  have hb := ha.framed (s.writeFrame c)
  refine (drive_enter (n := n + 77) (k := 0) h h0).trans <| (drive_effect (n := n + 76) (k := 1) h.entered rfl).trans <|
    (drive_frame (n := n + 6) (k := 2) (bs := [.opWrite, .opExt, .addrHi, .addrLo, .wdata]) ha (by simpa [effect] using h1)
      (by simpa [effect] using hf) (by simpa [effect] using hr) (by simpa [effect] using hp)).trans ?_
  have e : ([ByteSrc.opWrite, .opExt, .addrHi, .addrLo, .wdata].map fun b =>
      b.value (effect c (s.entered c) .csLow).cfg ((effect c (s.entered c) .csLow).bank c)) = s.writeFrame c := by
    simp only [List.map_cons, List.map_nil, effect, State.writeCs_cfg, State.writeCs_bank, State.entered_cfg,
      State.entered_value]
    rfl
  rw [e]
  refine (drive_effect (k := 7) hb rfl).trans <|
    (drive_leave (k := 8) (rest := []) (hb.effect .csHigh) (by simpa [effect] using h2)).trans ?_
  rw [State.advance_nil, drive_finish]
  rfl

/-- What I0 to I3 leave, but for the phase. -/
def State.configured (s : State) (c : Ctx) : State :=
  let s' := (s.entered c).busConfig.writeCs true
  if s.cfg.initCsLow then s'.writeCs false else s'

theorem drive_initPath {n : Nat} {c : Ctx} {s : State} (h : s.Alone c) (hn : s.nc.toNat ≤ 253) (hf : s.cfg.busFair = true)
    (hp : s.xferPending = false) :
    drive (n + 42) c (s.setPh c initPath) =
      .next (((((s.configured c).framed c [s.cfg.initB0, s.cfg.initB1]).endInit).left c).finish c) := by
  obtain ⟨h0, h1, h2⟩ := Count.transaction hn
  have ha := ((h.entered.effect .i1).effect .csHigh).effect .i3
  have hc : effect c (effect c (effect c (s.entered c) .i1) .csHigh) .i3 = s.configured c := by
    simp only [effect, State.configured]
    simp
  rw [hc] at ha
  have hb := ha.framed [s.cfg.initB0, s.cfg.initB1]
  have hx : (s.configured c).nc = s.nc + 1 ∧ (s.configured c).cfg = s.cfg ∧ (s.configured c).busReady = true ∧
      (s.configured c).xferPending = false := by
    simp only [State.configured]; split <;> simp [hp]
  refine (drive_enter (n := n + 37) (k := 0) h h0).trans <| (drive_effect (n := n + 36) (k := 1) h.entered rfl).trans <|
    (drive_effect (n := n + 35) (k := 2) (h.entered.effect .i1) rfl).trans <|
    (drive_effect (n := n + 34) (k := 3) ((h.entered.effect .i1).effect .csHigh) rfl).trans ?_
  rw [hc]
  refine (drive_frame (n := n + 6) (k := 4) (bs := [.initB0, .initB1]) ha (by rw [hx.1]; exact h1) (by rw [hx.2.1]; exact hf)
    hx.2.2.1 hx.2.2.2).trans ?_
  have e : ([ByteSrc.initB0, .initB1].map fun b => b.value (s.configured c).cfg ((s.configured c).bank c)) =
      [s.cfg.initB0, s.cfg.initB1] := by
    rw [hx.2.1]; rfl
  rw [e]
  refine (drive_effect (k := 6) hb rfl).trans <|
    (drive_leave (k := 7) (rest := []) (hb.effect .i6) (by simpa [effect, hx.1] using h2)).trans ?_
  rw [State.advance_nil, drive_finish]
  rfl

end Sys2Proof.Machine
end

