-- ==== Sys2Proof/Tests/Slice0.lean ====
section
/-! SUPPORT. Tests, each expected result from 95_test_vectors.md or by hand from the rule it names; the well-formedness smoke
test; and the witnesses: for every statement with hypotheses, a concrete state and operands that meet them. -/

namespace Sys2Proof.Tests

open Sys2Proof Sys2Proof.Machine

/-! ### Decoding: words written out from 30_encoding.md R60 and R62 (95_test_vectors.md V49 to V60) -/

theorem test_decode_enter : decode 0b001_0000000000000000_00000000 = .command (.enter 0x0000 0x00) := by decide
theorem test_decode_leave : decode 0b010_0000000000000000_00000000 = .command (.leave 0x0000 0x00) := by decide
theorem test_decode_receive : decode 0b011_0000000000000000_11111111 = .command (.exchange 0x0000 0xFF) := by decide
theorem test_decode_init_fields : decode 0b100_0001001000110100_01010110 = .command (.init 0x1234 0x56) := by decide
theorem test_decode_read : decode 0b101_0000000000010000_00000000 = .command (.read 0x0010 0x00) := by decide
theorem test_decode_write : decode 0b110_0000000000010000_10101011 = .command (.write 0x0010 0xAB) := by decide
theorem test_decode_write_top : decode 0b110_1111111111111111_11111111 = .command (.write 0xFFFF 0xFF) := by decide
theorem test_decode_000 : decode 0b000_1111111111111111_11111111 = .invalid .code000 := by decide
theorem test_decode_111 : decode 0b111_0000000000000000_00000000 = .invalid .code111 := by decide
theorem test_encode_write : encode (.write 0x0010 0xAB) = 0x60010AB := by decide
theorem test_decode_above_the_port : decodeTableWord 27 0x9000000 = none := by decide

/-! ### Well-formedness: an ill-formed term for each check (30_encoding.md R63, 20_memory.md R49) -/

theorem test_wf_enter : (Instr.enter 0xABCD 0xEF).canonical = false := by decide
theorem test_wf_leave : (Instr.leave 0x0000 0x01).canonical = false := by decide
theorem test_wf_exchange : (Instr.exchange 0x0001 0x5A).canonical = false := by decide
theorem test_wf_init : (Instr.init 0x1234 0x56).canonical = false := by decide
theorem test_wf_read : (Instr.read 0x0010 0xFF).canonical = false := by decide
theorem test_wf_write : (Instr.write 0xFFFF 0xFF).canonical = true := by decide
theorem test_wf_config : ({ Config.default with opWrite := 0x03 } : Config).wellFormed = false := by decide
theorem test_wf_config_default : Config.default.wellFormed = true := by decide

/-! ### States -/

/-- Idle in context `main`, after a completed INIT, with `NC = n`, `IE = i`, `TICK_EN = tk` and the parameters `p`. -/
def up (n : Count) (i tk : Bool) (p : Config := Config.default) : State :=
  { State.resetWith p with nc := n, ie := i, tickEn := tk, busReady := true, dev := { Device.reset with known := true } }

/-- The same with the handler's context running. -/
def inHandler (n : Count) : State := { up n false false with ctx := .irq }

/-- The same with the command of code `k` in progress in `main`, its path from `ph` on. -/
def inside (n : Count) (i : Bool) (k : CmdCode) (ph : List Micro) : State :=
  { up n i true with main := { Bank.reset with cmd := k, ph := ph } }

/-- The same with the environment's list `e`. -/
def withEnv (e : List Move) (s : State) : State := { s with env := e }

/-- The outcome is a next state in which `p` holds. -/
def nextWith (r : Machine.Result) (p : State → Bool) : Bool := (Result.state? r).any p

theorem exists_next {r : Machine.Result} {p : State → Bool} (h : nextWith r p = true) : ∃ t, r = .next t ∧ p t = true := by
  cases r with
  | next t => exact ⟨t, rfl, h⟩
  | fault e => exact nomatch h
  | refused e => exact nomatch h

/-! ### One step of each command -/

/-- V1 -/
theorem test_enter_outermost : nextWith (exec (.enter 0 0) (up 0 true true)) (fun t =>
    t.nc = 1 ∧ t.ie ∧ !t.tickEn ∧ t.trace = [.ie false, .nc 1, .tick false, .ie true, .ret .main none]) = true := by decide
/-- V7 -/
theorem test_enter_overflow : nextWith (exec (.enter 0 0) (up 255 true false)) (fun t =>
    t.nc = 255 ∧ !t.ie ∧ t.halt ∧ t.trace = [.ie false, .fatal .overflow]) = true := by decide
/-- V11 -/
theorem test_leave_outermost : nextWith (exec (.leave 0 0) (up 1 false false)) (fun t =>
    t.nc = 0 ∧ !t.ie ∧ t.tickEn ∧ t.trace = [.ie false, .nc 0, .tick true, .ie false, .ret .main none]) = true := by decide
/-- V13 -/
theorem test_leave_underflow : nextWith (exec (.leave 0 0) (up 0 true true)) (fun t =>
    t.nc = 0 ∧ t.tickEn ∧ !t.halt ∧ t.trace = [.ie false, .err .underflow, .ie true, .ret .main none]) = true := by decide
/-- V22 -/
theorem test_exchange_deepest : ∃ t, exec (.exchange 0 0x5A) (up 254 true false) = .next t ∧
    t.trace = [.ie false, .nc 255, .ie true, .tx 0x5A, .rx (Config.freeByte 0), .ie false, .nc 254, .ie true,
      .ret .main (some (Config.freeByte 0))] := ⟨_, rfl, rfl⟩
/-- V23 -/
theorem test_exchange_overflow : nextWith (exec (.exchange 0 0x5A) (up 255 true false)) (fun t =>
    t.halt ∧ t.txd = 0 ∧ t.trace = [.ie false, .fatal .overflow]) = true := by decide
/-- V30: the counts, and the state after. -/
theorem test_init : nextWith (exec (.init 0 0) { State.reset with ie := true, tickEn := true }) (fun t =>
    t.nc = 0 ∧ t.ie ∧ t.tickEn ∧ t.csN ∧ t.busReady ∧ t.dev.known ∧
    t.trace.filterMap Event.csValue = [true, false, true] ∧ t.trace.filterMap Event.txByte = [0x01, 0x00] ∧
    (t.trace.filterMap Event.ieValue).length = 12 ∧ t.trace.filterMap Event.ncValue = [1, 2, 1, 2, 1, 0]) = true := by decide
/-- V34 -/
theorem test_init_overflow : nextWith (exec (.init 0 0) (up 254 true false)) (fun t =>
    t.halt ∧ !t.csN ∧ t.trace = [.ie false, .nc 255, .ie true, .cfg, .cs true, .cs false, .ie false, .fatal .overflow]) =
    true := by decide
/-- V31: the frame and the result. -/
theorem test_read : nextWith (exec (.read 0x0010 0) { up 0 true true with
      dev := { Device.reset with known := true, mem := [(0x0010, 0xAB)] } }) (fun t =>
    t.rspData = 0xAB ∧ t.dev.mem = [(0x0010, 0xAB)] ∧ t.trace.filterMap Event.txByte = [0x03, 0x00, 0x00, 0x10, 0xFF] ∧
    t.trace.filterMap Event.csValue = [false, true]) = true := by decide
/-- V39 -/
theorem test_read_overflow : nextWith (exec (.read 0x0010 0) (up 254 true false)) (fun t =>
    t.halt ∧ !t.csN ∧ t.trace = [.ie false, .nc 255, .ie true, .cs false, .ie false, .fatal .overflow]) = true := by decide
/-- V36 and V37: the frame and the cell; the high address byte first. -/
theorem test_write : nextWith (exec (.write 0xFF00 0x22) (up 0 true true)) (fun t =>
    t.dev.mem = [(0xFF00, 0x22)] ∧ t.rspData = 0 ∧ t.trace.filterMap Event.txByte = [0x02, 0x00, 0xFF, 0x00, 0x22]) =
    true := by decide
/-- V47 -/
theorem test_write_one_cell : nextWith (exec (.write 0x0008 0xA5) { up 0 true true with
      dev := { Device.reset with known := true, mem := [(0x0007, 0x5A), (0x0009, 0x11)] } }) (fun t =>
    t.dev.mem = [(0x0007, 0x5A), (0x0008, 0xA5), (0x0009, 0x11)]) = true := by decide
/-- V49: refused, with no next state. -/
theorem test_reserved_refused : step (State.reset.withFetchWord 27 0x0FFFFFF) = .refused .reservedCode000 := rfl
/-- V18: an interrupt between E1 and E2; `SNAP` is banked. -/
theorem test_interrupt_inside_enter :
    nextWith (step (withEnv [.seq, .seq, .intr false [0x1000000, 0x2000000]]
        ((up 0 true true { Config.default with handlers := [[0x1000000, 0x2000000]] }).withFetchWord 27 0x1000000)))
      (fun t => t.nc = 1 ∧ t.ie ∧ !t.tickEn ∧ t.trace = [.irqIn, .ie false, .nc 1, .tick false, .ie false, .ret .irq none,
        .ie false, .nc 0, .tick true, .ie false, .ret .irq none, .irqOut, .ie false, .nc 1, .tick false, .ie true,
        .ret .main none]) = true := by decide
/-- V63: reset from a halted block. -/
theorem test_reset_after_overflow : nextWith (step (withEnv [.reset] { up 255 false false with halt := true, csN := false }))
    (fun t => t.nc = 0 ∧ !t.halt ∧ t.csN ∧ !t.dev.known ∧ !t.busReady) = true := by decide

/-! ### Witnesses: states that meet the hypotheses -/

theorem default_op_codes : Config.default.opRead ≠ Config.default.opWrite := by decide

theorem witness_quiet (n : Count) (i tk : Bool) : (up n i tk).Quiet ∧ (up n i tk).BusUp ∧ (up n i tk).csN = true ∧
    (up n i tk).dev.known = true ∧ (up n i tk).cfg.busFair = true ∧ (up n i tk).xferPending = false ∧ (up n i tk).nc = n :=
  ⟨⟨rfl, rfl, rfl, default_op_codes⟩, ⟨rfl, rfl, rfl⟩, rfl, rfl, rfl, rfl, rfl⟩

/-- In a handler's context too. -/
theorem witness_quiet_handler (n : Count) : (inHandler n).Quiet ∧ (inHandler n).BusUp :=
  ⟨⟨rfl, rfl, rfl, default_op_codes⟩, ⟨rfl, rfl, rfl⟩⟩

/-- The line deasserted; and a handler's READ in the frame that `main` opened and sent no byte in (20_memory.md R49, R50). -/
theorem witness_frame_fresh : (up 0 true true).FrameFresh ∧
    { inHandler 0 with csN := false, dev := { Device.reset with known := true } }.FrameFresh ∧
    nextWith (exec (.read 0x0010 0) { inHandler 0 with
        csN := false, dev := { Device.reset with known := true, mem := [(0x0010, 0xAB)] } })
      (fun t => t.rspData = 0xAB ∧ t.dev.mem = [(0x0010, 0xAB)]) = true := ⟨.inl rfl, .inr ⟨rfl, rfl⟩, by decide⟩

/-- The counter at the boundaries of ENTER, LEAVE, EXCHANGE and the transactions. -/
theorem witness_boundaries : (up 254 true true).nc ≠ 255 ∧ (up 255 true true).nc = 255 ∧ (up 0 true true).nc = 0 ∧
    (up 1 true true).nc ≠ 0 ∧ (up 253 true true).nc.toNat ≤ 253 ∧ (up 254 true true).nc = 254 ∧
    (up 254 true true).nc.toNat ≤ 254 := by decide

/-- `INIT_CS_LOW`, `INIT_KEEPS_MEM` and `BUS_FAIR` false; a device not yet initialised. -/
theorem witness_parameters :
    let p := { Config.default with initCsLow := false, initKeepsMem := false, busFair := false }
    (up 0 true true p).Quiet ∧ (up 0 true true p).cfg.busFair = false ∧ (up 0 true true p).xferPending = false ∧
      { up 0 true true with dev := Device.reset }.Quiet ∧ { up 0 true true with dev := Device.reset }.BusUp ∧
      { up 0 true true with dev := Device.reset }.dev.known = false :=
  ⟨⟨rfl, rfl, rfl, by decide⟩, rfl, rfl, ⟨rfl, rfl, rfl, by decide⟩, ⟨rfl, rfl, rfl⟩, rfl⟩

theorem witness_decode : decode (encode (.read 0x1234 0x56)) = .command (.read 0x1234 0x56) ∧
    (∃ t, accept (.read 0x1234 0x56) readPath (up 0 true true) = .next t) := ⟨by decide, _, rfl⟩

theorem witness_reserved : (∃ s', (State.reset.withFetchWord 27 0x0FFFFFF).fetch = some (0x0FFFFFF, s')) ∧
    (∃ s', (State.reset.withFetchWord 27 0x7000000).fetch = some (0x7000000, s')) ∧
    opField 0x0FFFFFF = 0 ∧ opField 0x7000000 = 7 := ⟨⟨_, rfl⟩, ⟨_, rfl⟩, by decide, by decide⟩

theorem witness_offered : ((up 0 true true).withFetchWord 27 0x1000000).halt = false ∧
    (((up 0 true true).withFetchWord 27 0x1000000).bank .main).ph = [] ∧
    (((up 0 true true).withFetchWord 27 0x1000000).bank .main).port = [0x1000000] ∧
    decode 0x1000000 = .command (.enter 0 0) ∧ (withEnv [.seq, .bus] (up 0 true true)).env.head? = some .seq :=
  ⟨rfl, rfl, rfl, by decide, rfl⟩

theorem witness_not_accepted : (inside 1 true 1 [⟨0, .e5⟩]).halt = false ∧
    ((inside 1 true 1 [⟨0, .e5⟩]).bank .main).ph ≠ [] ∧
    (up 0 true true { Config.default with opWrite := 0x03 }).cfg.opRead =
      (up 0 true true { Config.default with opWrite := 0x03 }).cfg.opWrite := by decide

/-- A halted block: with no turn to come, with a turn that passes, and with a reset to come. -/
theorem witness_halted : (step { up 255 false false with halt := true } = .fault .halted) ∧
    (∃ t, step (withEnv [.seq] { up 255 false false with halt := true }) = .next t ∧ t.halt = true) ∧
    (∃ t, step (withEnv [.reset] { up 255 false false with halt := true }) = .next t ∧ t.halt = false) :=
  ⟨rfl, ⟨_, rfl, rfl⟩, ⟨_, rfl, rfl⟩⟩

theorem witness_nest : (Nest.pair (.pair .nothing .nothing) .nothing).depth ≤ 255 ∧ Nest.nothing.depth ≤ 255 ∧
    (Nest.pair (.pair .nothing .nothing) (.pair .nothing .nothing)).commands =
      [.enter 0 0, .enter 0 0, .leave 0 0, .leave 0 0, .enter 0 0, .leave 0 0] := by decide

/-! ### Witnesses for the invariants -/

theorem witness_inv (n : Count) (i tk : Bool) : (up n i tk).Inv where
  mem := rfl
  mainPath := .inl rfl
  irqPath := .inl rfl
  irqIdle _ := rfl
  masked _ h := nomatch h
  notSuspended h := nomatch h
  handlerIe h := nomatch h
  handlerSnap h := nomatch h
  mainSnap _ h := nomatch h
  transfer h := nomatch h.1
  waits c h := by cases c <;> exact nomatch h

/-- `main` inside a gate command, at a micro-step that runs with interrupts off. -/
theorem witness_inv_masked (n : Count) (k : CmdCode) (m : Micro) (ph : List Micro) (hm : m.op.masked = true)
    (hp : (inside n false k (m :: ph)).main.onPath) : (inside n false k (m :: ph)).Inv where
  mem := rfl
  mainPath := hp
  irqPath := .inl rfl
  irqIdle _ := rfl
  masked _ _ _ := rfl
  notSuspended h := nomatch h
  handlerIe h := nomatch h
  handlerSnap h := nomatch h
  mainSnap o h hc := by
    cases h
    generalize m.op = o at hm hc
    cases o <;> simp [Op.masked, Op.captured] at hm hc
  transfer h := nomatch h.1
  waits c h := by
    cases c
    · simp only [Bank.next, State.bank, inside, List.head?_cons, Option.map_some, Option.some.injEq] at h
      rw [h] at hm
      exact nomatch hm
    · exact nomatch h

/-- `main` at E3 of an ENTER, with and without an interrupt request: the counter moves, the request passes. -/
theorem witness_at_e3 : (inside 0 false 1 [⟨0, .e3⟩, ⟨0, .e4⟩, ⟨0, .e5⟩]).Inv ∧
    (∃ t, turn (inside 0 false 1 [⟨0, .e3⟩, ⟨0, .e4⟩, ⟨0, .e5⟩]) = .next t ∧ t.nc = 1) ∧
    (inside 0 false 1 [⟨0, .e3⟩, ⟨0, .e4⟩, ⟨0, .e5⟩]).main.next = some .e3 :=
  ⟨witness_inv_masked 0 1 ⟨0, .e3⟩ _ rfl (.inr ⟨.enter 0 0, rfl, [⟨0, .e1⟩, ⟨0, .e2⟩], rfl⟩), ⟨_, rfl, rfl⟩, rfl⟩

theorem witness_at_l3 : (inside 1 false 2 [⟨0, .l3⟩, ⟨0, .l4⟩, ⟨0, .l5⟩]).Inv ∧
    (∃ t, turn (inside 1 false 2 [⟨0, .l3⟩, ⟨0, .l4⟩, ⟨0, .l5⟩]) = .next t ∧ t.nc = 0) :=
  ⟨witness_inv_masked 1 2 ⟨0, .l3⟩ _ rfl (.inr ⟨.leave 0 0, rfl, [⟨0, .l1⟩, ⟨0, .l2⟩], rfl⟩), ⟨_, rfl, rfl⟩⟩

/-- The same states as a handler's request finds them; `withEnv` keeps the invariant's premises. -/
theorem witness_request_at_e3 : (withEnv [.intr true []] (inside 0 false 1 [⟨0, .e3⟩, ⟨0, .e4⟩, ⟨0, .e5⟩])).Inv := by
  obtain ⟨h1, h2, h3, h4, h5, h6, h7, h8, h9, h10, h11⟩ := witness_at_e3.1
  exact ⟨h1, h2, h3, h4, h5, h6, h7, h8, h9, h10, fun c => by cases c; exacts [h11 .main, h11 .irq]⟩

theorem witness_tick_off : (up 3 true false).TickOff ∧ (∀ v, Move.tickWrite v ∉ (up 3 true false).env) ∧
    (∃ t, step (up 3 true false) = .next t) ∧ (∃ t, exec (.exchange 0 1) (up 3 true false) = .next t) :=
  ⟨.inr (.inl rfl), fun _ => nofun, ⟨_, rfl⟩, ⟨_, rfl⟩⟩

theorem witness_cs : (up 3 true false).HandlersOffBus ∧ (up 3 true false).CsDiscipline ∧
    (∀ ws ∈ ({ Config.default with handlers := [[0x1000000]] } : Config).handlers, gateOnly ws) :=
  ⟨⟨nofun, nofun, .inl rfl⟩, rfl, fun ws h w hw => by
    simp only [List.mem_singleton] at h; subst h
    simp only [List.mem_singleton] at hw; subst hw; exact .inl (by decide)⟩

theorem witness_trace : let s := State.reset.withFetchWord 27 0x1000000
    (s.nc = ((s.trace.filterMap Event.ncValue).getLast?).getD 0 ∧
      s.csN = ((s.trace.filterMap Event.csValue).getLast?).getD true) ∧ ∃ t, step s = .next t := ⟨⟨rfl, rfl⟩, _, rfl⟩

/-- Turns that change the switches: E2, E5, entry, return, a write by other software, a reset; E4, L4, a write by the scheduler. -/
theorem witness_switches : nextWith (turn (inside 0 true 1 [⟨0, .e2⟩])) (fun t => !t.ie) = true ∧
    nextWith (turn { inside 1 false 1 [⟨0, .e5⟩] with main := { Bank.reset with snap := true, ph := [⟨0, .e5⟩] } })
      (fun t => t.ie) = true ∧
    nextWith (turn (withEnv [.intr false []] (up 0 true true))) (fun t => !t.ie && t.ctx = .irq) = true ∧
    nextWith (turn (inHandler 0)) (fun t => t.ie && t.ctx = .main) = true ∧
    nextWith (turn (withEnv [.ieWrite true] (up 0 false true))) (fun t => t.ie) = true ∧
    nextWith (turn (withEnv [.reset] (up 0 true true))) (fun t => !t.ie && !t.tickEn) = true ∧
    nextWith (turn (inside 1 false 1 [⟨0, .e4⟩])) (fun t => !t.tickEn) = true ∧
    nextWith (turn { inside 0 false 2 [⟨0, .l4⟩] with tickEn := false }) (fun t => t.tickEn) = true ∧
    nextWith (turn (withEnv [.tickWrite false] (up 0 true true))) (fun t => !t.tickEn) = true := by decide

/-! ### Witnesses for interrupts -/

theorem witness_entry : (withEnv [.intr true []] (up 0 true true)).env = [.intr true []] ∧
    (withEnv [.intr true []] (up 0 true true)).ctx = .main ∧ (withEnv [.intr true []] (up 0 true true)).halt = false ∧
    (withEnv [.intr true []] (up 0 true true)).ie = true ∧ (withEnv [.intr true []] (up 0 true true)).tickEn = true ∧
    nextWith (turn (withEnv [.intr true []] (up 0 true true))) (fun t => t.ctx = .irq) = true ∧
    nextWith (turn (withEnv [.intr true []] (up 1 true false))) (fun t => t.ctx = .main) = true ∧
    (withEnv [.intr false [], .seq] (up 1 true false)).env = [.intr false [], .seq] := by decide

theorem witness_entry_listed : [0x1000000] ∈ (up 0 true true { Config.default with handlers := [[0x1000000]] }).cfg.handlers :=
  by decide

theorem witness_return : (inHandler 0).env = [] ∧ (inHandler 0).halt = false ∧ (inHandler 0).ctx = .irq ∧
    (inHandler 0).irq.ph = [] ∧ (inHandler 0).irq.port = [] := by decide

/-- A request while the handler runs, with the gate open. -/
theorem witness_no_nesting : (withEnv [.intr false []] { inHandler 0 with ie := true }).ctx = .irq ∧
    (withEnv [.intr false []] { inHandler 0 with ie := true }).env = [.intr false []] ∧
    (withEnv [.intr false []] { inHandler 0 with ie := true }).ie = true := by decide

/-! ### Witnesses for the bus and the device -/

/-- Held at X3, before and after the completion; a second `TXD` write; the `bus` agent's turn. -/
theorem witness_bus : ((inside 1 true 3 [⟨0, .x3⟩]).bank .main).next = some .x3 ∧
    (∃ t, turn { inside 1 true 3 [⟨0, .x3⟩] with xferDone := true } = .next t ∧ t.main.ph = []) ∧
    (∃ t, turn (withEnv [.reset] (inside 1 true 3 [⟨0, .x3⟩])) = .next t ∧ t.main.ph = []) ∧
    ((inside 1 true 3 [⟨0, .x2 .wdata⟩]).bank .main).ph = [⟨0, .x2 .wdata⟩] ∧
    turn { inside 1 true 3 [⟨0, .x2 .wdata⟩] with xferPending := true } = .fault .transferInFlight ∧
    (withEnv [.bus] (up 0 true true)).env = [.bus] ∧ (withEnv [.bus] (up 0 true true)).xferPending = false ∧
    (withEnv [.bus] { up 0 true true with xferPending := true }).xferPending = true :=
  ⟨rfl, ⟨_, rfl, rfl⟩, ⟨_, rfl, rfl⟩, rfl, rfl, rfl, rfl, rfl⟩

/-- Headers received whole, at the lowest and the highest address; and the three ways a frame is broken. -/
theorem witness_frames : Config.default.opRead ≠ Config.default.opWrite ∧
    ({ Device.reset with known := true, fr := [0x03, 0x00, 0x00, 0x00] } : Device).fr =
      [Config.default.opRead, Config.default.opExt, 0x00, 0x00] ∧
    ({ Device.reset with known := true, fr := [0x02, 0x00, 0xFF, 0xFF] } : Device).fr =
      [Config.default.opWrite, Config.default.opExt, 0xFF, 0xFF] ∧
    Device.spoils { Device.reset with known := true } Config.default true .main 0x77 = true ∧
    Device.beginsInit Config.default (Device.reset.fr ++ [0x03]) = false ∧ Device.reset.known = false ∧
    Device.wholeFrame Config.default [0x02, 0x00] = false ∧
    ({ Device.reset with frBad := true } : Device).frBad = true := by decide

/-! ### Witnesses for sequences and ends -/

/-- WRITE, then an EXCHANGE and a READ of another cell; the hypotheses of the round trip. -/
theorem witness_round_trip : ∃ t u, exec (.write 0xFFFF 0xA4) (up 0 true true) = .next t ∧
    runAll [.exchange 0 0x5A, .read 0x0001 0] t = .next u ∧ (u.halt = false ∧ u.nc.toNat ≤ 253) := by
  obtain ⟨t, ht, h⟩ := exists_next (r := exec (.write 0xFFFF 0xA4) (up 0 true true))
    (p := fun t => nextWith (runAll [.exchange 0 0x5A, .read 0x0001 0] t) fun u => u.halt = false ∧ u.nc.toNat ≤ 253) (by decide)
  obtain ⟨u, hu, h⟩ := exists_next h
  exact ⟨t, u, ht, hu, by simpa using h⟩

theorem witness_init : ∃ t, exec (.init 0 0) (up 253 true false) = .next t := ⟨_, rfl⟩

/-- A command that completes, one that halts and one that hangs. -/
theorem witness_ends : nextWith (exec (.enter 0 0) (up 0 true true)) (fun t => t.main.ph = []) = true ∧
    nextWith (exec (.enter 0 0) (up 255 true true)) (fun t => t.halt) = true ∧
    nextWith (exec (.exchange 0 0x5A) (up 0 true true { Config.default with busFair := false })) (fun t => t.hung) = true ∧
    (up 0 true true).cfg.unreadyCompletes = true := by decide

theorem witness_idle : State.reset.env = [] ∧ State.reset.halt = false ∧ State.reset.ctx = .main ∧ State.reset.main.ph = [] ∧
    State.reset.main.port = [] := by decide

theorem witness_reset : (withEnv [.reset] (up 7 true true)).env = [.reset] ∧ (up 7 true true).csN = true := by decide

end Sys2Proof.Tests
end

section
/-! The parameters are no state (00_scope.md R6, 10_state.md R29): no operation, no turn and no step writes the configuration. -/

namespace Sys2Proof.Machine

@[simp] theorem State.raise_cfg (s : State) (k : ErrorKind) : (s.raise k).cfg = s.cfg := by cases k <;> rfl
@[simp] theorem State.takeWord_cfg (s : State) : s.takeWord.cfg = s.cfg := State.setBank_cfg ..
@[simp] theorem State.resetNow_cfg (s : State) : s.resetNow.cfg = s.cfg := rfl

/-- A micro-step leaves the configuration as it was, on its ordinary way and on every other. -/
theorem runOp_cfg {c : Ctx} {o : Op} {rest : List Micro} {s t : State} (h : runOp c o rest s = .next t) :
    t.cfg = s.cfg := by
  obtain ⟨-, rfl⟩ | ⟨-, -, rfl⟩ | ⟨-, -, rfl⟩ | ⟨-, -, rfl⟩ := runOp_eq_next h <;> simp

theorem accept_cfg {i : Instr} {path : List Micro} {s t : State} (h : accept i path s = .next t) : t.cfg = s.cfg := by
  obtain ⟨-, -, rfl⟩ := accept_eq_next h
  simp

/-- Nothing that a turn can do writes the configuration. -/
theorem Did.cfg_eq {who : Option Move} {s t : State} (h : Did who s t) : t.cfg = s.cfg := by
  cases h with
  | op m rest t by_ ph halt run => exact runOp_cfg run
  | accepted i w t by_ idle offer word run => exact (accept_cfg run).trans s.takeWord_cfg
  | nothing | configured | ieWritten | tickWritten => rfl
  | returned => exact s.leaveHandler_cfg
  | entered tick cmds => exact s.enterHandler_cfg cmds
  | completed => exact s.completeTransfer_cfg
  | wasReset => exact s.resetNow_cfg

theorem turn_cfg {s t : State} (h : turn s = .next t) : t.cfg = s.cfg := (turn_did h).cfg_eq

end Sys2Proof.Machine

namespace Sys2Proof

open Machine

/-- Settles O19: no turn writes the configuration, and a step is made of turns. -/
theorem parametersNeverChange : Obligations.ParametersNeverChange := fun s _ h =>
  step_keeps (P := fun u => u.cfg = s.cfg) (fun _ _ hs hu => (turn_cfg hu).trans hs) rfl h

end Sys2Proof
end

section
/-! What a turn keeps. Every operation behind a turn is described once, in the words of the invariants of 10_state.md; a
property that does not speak of the environment's list is kept by a step as soon as everything a turn can do keeps it. -/

namespace Sys2Proof.Machine

/-- A property that does not read the environment's list, and that everything a turn can do keeps, is kept by every turn. -/
theorem turn_keeps {P : State → Prop} (henv : ∀ s e, P s → P { s with env := e })
    (hdid : ∀ who s t, Did who s t → P s → P t) {s t : State} (hs : P s) (h : turn s = .next t) : P t :=
  hdid _ _ _ (turn_did h) (henv s _ hs)

/-- The same for a step, which is made of turns. -/
theorem step_keeps_of_did {P : State → Prop} (henv : ∀ s e, P s → P { s with env := e })
    (hdid : ∀ who s t, Did who s t → P s → P t) {s t : State} (hs : P s) (h : step s = .next t) : P t :=
  step_keeps (P := P) (fun _ _ => turn_keeps henv hdid) hs h

/-! ### A micro-step, on every way it can go -/

/-- `CS_N` after the micro-step `o`, which found it at `v`, where `low` is `INIT_CS_LOW` (10_state.md R22). -/
def Op.csAfter (low : Bool) (o : Op) (v : Bool) : Bool :=
  if o = .csHigh ∨ o = .i6 then true else if o = .csLow ∨ (o = .i3 ∧ low = true) then false else v

/-- What the micro-step `o` of context `c` has written, in the words of the invariants, when it goes on along its path. -/
structure Wrote (c : Ctx) (o : Op) (s u : State) : Prop where
  ctx : u.ctx = s.ctx
  cfg : u.cfg = s.cfg
  ie : u.ie = if o = .e2 ∨ o = .l2 then false else if o = .e5 ∨ o = .l5 then (s.bank c).snap else s.ie
  snap : (u.bank c).snap = if o = .e1 ∨ o = .l1 then s.ie else (s.bank c).snap
  cmd : (u.bank c).cmd = (s.bank c).cmd
  port : (u.bank c).port = (s.bank c).port
  other : ∀ d, d ≠ c → u.bank d = s.bank d
  transfer : (u.xferDone = s.xferDone ∧ u.xferPending = s.xferPending ∧ ∀ b, o ≠ .x2 b) ∨
    (∃ b, o = .x2 b) ∧ u.xferDone = false ∧ u.xferPending = true
  csN : u.csN = o.csAfter s.cfg.initCsLow s.csN
  mem : Memory.wf s.dev.mem = true → Memory.wf u.dev.mem = true

theorem effect_wrote (c : Ctx) (s : State) (o : Op) : Wrote c o s (effect c s o) where
  ctx := effect_ctx c s o
  cfg := effect_cfg c s o
  ie := effect_ie c s o
  snap := effect_snap c s o
  cmd := (effect_kept c s o).2.1
  port := (effect_kept c s o).2.2.2.2
  other _ h := effect_bank_other h s o
  transfer := effect_transfer c s o
  csN := effect_csN c s o
  mem := effect_wf c s o

/-- Underflow is an event and nothing else (60_exceptions.md R142). -/
theorem underflow_wrote (c : Ctx) (s : State) : Wrote c .l3 s (s.raise .underflow) := by
  constructor <;> simp [State.raise, Op.csAfter]

/-- Everything a micro-step `m` with the path `rest` after it can lead to: the context stays at `m`, halted in Overflow or held
at X3, or it goes on, after an Underflow past L4. -/
inductive Ran (c : Ctx) (m : Micro) (rest : List Micro) (s : State) : State → Prop where
  | stayed (h : Bool) (es : List Event) : Ran c m rest s { s with halt := h, trace := es }
  | went (u : State) (l : List Micro) (wrote : Wrote c m.op s u) (way : l = rest ∨ (m.op = .l3 ∧ l = afterUnderflow rest)) :
      Ran c m rest s (u.advance c l)

theorem runOp_ran {c : Ctx} {m : Micro} {rest : List Micro} {s t : State} (h : runOp c m.op rest s = .next t) :
    Ran c m rest s t := by
  obtain ⟨-, rfl⟩ | ⟨-, -, rfl⟩ | ⟨ho, -, rfl⟩ | ⟨-, -, rfl⟩ := runOp_eq_next h
  · exact .went _ rest (effect_wrote c s m.op) (.inl rfl)
  · exact .stayed true _
  · exact .went _ _ (ho ▸ underflow_wrote c s) (.inr ⟨ho, rfl⟩)
  · exact .stayed t.halt t.trace

/-! ### The bank that goes on, and the other one -/

@[simp] theorem State.advance_main (s : State) (l : List Micro) : (s.advance .main l).main = { s.main with ph := l } := by
  cases l <;> rfl
@[simp] theorem State.advance_irq (s : State) (l : List Micro) : (s.advance .irq l).irq = { s.irq with ph := l } := by
  cases l <;> rfl
@[simp] theorem State.advance_main_irq (s : State) (l : List Micro) : (s.advance .main l).irq = s.irq := by
  cases l <;> rfl
@[simp] theorem State.advance_irq_main (s : State) (l : List Micro) : (s.advance .irq l).main = s.main := by
  cases l <;> rfl

/-! ### Which micro-step comes after which -/

/-- What the micro-step that is next says of the one `m` that has just run: the part of `Follows` that also holds where a
failed LEAVE passes over L4. -/
def Prepares (m m' : Micro) : Prop :=
  (m'.op.masked = true → m.op = .e2 ∨ m.op = .l2 ∨ m.op = .e3 ∨ m.op = .e4 ∨ m.op = .l3 ∨ m.op = .l4) ∧
  (m'.op.captured = true → m.op = .e1 ∨ m.op = .l1) ∧ (m'.op = .x3 → ∃ b, m.op = .x2 b)

theorem Follows.prepares {m m' : Micro} (h : Follows m m') : Prepares m m' := by
  obtain ⟨hm, hc, hx, -⟩ := h
  exact ⟨hm, hc, hx⟩

/-- After L3 stands L4, which a failed LEAVE passes over (40_critical_section.md R88). -/
theorem afterUnderflow_eq_tail {m : Micro} {rest : List Micro} (hc : (m :: rest).IsChain Follows) (hm : m.op = .l3) :
    afterUnderflow rest = rest.tail := by
  cases rest with
  | nil => rfl
  | cons m₁ rest =>
    obtain ⟨⟨-, -, -, -, hl4, -⟩, -⟩ := List.isChain_cons_cons.mp hc
    simp [afterUnderflow, hl4 hm]

/-- After an Underflow the next micro-step is L5. -/
theorem afterUnderflow_head {m m' : Micro} {rest : List Micro} (hc : (m :: rest).IsChain Follows) (hm : m.op = .l3)
    (h : m' ∈ (afterUnderflow rest).head?) : m'.op = .l5 := by
  rw [afterUnderflow_eq_tail hc hm] at h
  match rest with
  | [] => simp at h
  | [_] => simp at h
  | m₁ :: m₂ :: rest =>
    obtain ⟨⟨-, -, -, -, hl4, -⟩, hc'⟩ := List.isChain_cons_cons.mp hc
    obtain ⟨⟨-, -, -, -, -, hl5⟩, -⟩ := List.isChain_cons_cons.mp hc'
    obtain rfl : m₂ = m' := by simpa using h
    exact hl5 (hl4 hm)

/-- On both ways on, what is next was prepared by the micro-step that has run. -/
theorem prepares_of_way {m m' : Micro} {rest l : List Micro} (hc : (m :: rest).IsChain Follows)
    (hl : l = rest ∨ (m.op = .l3 ∧ l = afterUnderflow rest)) (h : m' ∈ l.head?) : Prepares m m' := by
  obtain rfl | ⟨hm, rfl⟩ := hl
  · cases l with
    | nil => simp at h
    | cons m₁ l =>
      obtain rfl : m₁ = m' := by simpa using h
      exact (List.isChain_cons_cons.mp hc).1.prepares
  · simp [Prepares, afterUnderflow_head hc hm h, Op.captured, hm]

/-- On both ways on, what is left ends the path as before. -/
theorem suffix_of_way {m : Micro} {rest l : List Micro} (hc : (m :: rest).IsChain Follows)
    (hl : l = rest ∨ (m.op = .l3 ∧ l = afterUnderflow rest)) : l <:+ m :: rest := by
  obtain rfl | ⟨hm, rfl⟩ := hl
  · exact List.suffix_cons m l
  · rw [afterUnderflow_eq_tail hc hm]
    exact (List.tail_suffix rest).trans (List.suffix_cons m rest)

/-- A path begins with the capture of `IE`: E1 or L1. -/
theorem commandPath_head (i : Instr) :
    (commandPath i).head?.map Micro.op = some .e1 ∨ (commandPath i).head?.map Micro.op = some .l1 := by
  cases i with
  | leave => exact .inr rfl
  | enter | exchange | init | read | write => exact .inl rfl

end Sys2Proof.Machine
end

section
/-! The machine's invariant (10_state.md R16, R25, R27, 40_critical_section.md R92, 60_exceptions.md R150 to R152), read as
three parts: the device and the transfer, the running context, and the context that is not running. Every operation is
checked against the parts it touches. -/

namespace Sys2Proof.Machine

/-- What the invariant says of the running context. -/
structure State.Running (s : State) : Prop where
  path : (s.bank s.ctx).onPath
  masked : ∀ o, (s.bank s.ctx).next = some o → o.masked = true → s.ie = false
  handlerIe : s.ctx = .irq → s.ie = false
  handlerSnap : s.ctx = .irq → ∀ o, (s.bank s.ctx).next = some o → o.masked = true → (s.bank s.ctx).snap = false
  captured : ∀ o, (s.bank s.ctx).next = some o → o.captured = true → (s.bank s.ctx).snap = s.ie
  waits : (s.bank s.ctx).next = some .x3 → s.xferDone = true ∨ s.xferPending = true

/-- What the invariant says of the context that is not running: a handler's is idle, and `main` is suspended outside the steps
that run with interrupts off. -/
structure State.Suspended (s : State) : Prop where
  irqIdle : s.ctx = .main → s.irq.ph = []
  path : s.ctx = .irq → s.main.onPath
  unmasked : s.ctx = .irq → ∀ o, s.main.next = some o → o.masked = false
  captured : s.ctx = .irq → ∀ o, s.main.next = some o → o.captured = true → s.main.snap = true
  waits : s.ctx = .irq → s.main.next = some .x3 → s.xferDone = true ∨ s.xferPending = true

theorem Bank.next_of_idle {b : Bank} (h : b.ph = []) : b.next = none := by simp [Bank.next, h]

theorem Bank.next_of_cons {b : Bank} {m : Micro} {rest : List Micro} (h : b.ph = m :: rest) : b.next = some m.op := by
  simp [Bank.next, h]

theorem State.Inv.running {s : State} (h : s.Inv) : s.Running where
  path := by
    cases hc : s.ctx
    · exact h.mainPath
    · exact h.irqPath
  masked := h.masked
  handlerIe := h.handlerIe
  handlerSnap hc o ho hm := by
    rw [hc] at ho ⊢
    exact h.handlerSnap hc o ho (by simp [hm])
  captured o ho hm := by
    cases hc : s.ctx <;> rw [hc] at ho
    · simpa [State.bank, hc] using h.mainSnap o ho hm
    · rw [h.handlerIe hc]
      exact h.handlerSnap hc o ho (by simp [hm])
  waits := h.waits s.ctx

theorem State.Inv.suspended {s : State} (h : s.Inv) : s.Suspended where
  irqIdle := h.irqIdle
  path _ := h.mainPath
  unmasked := h.notSuspended
  captured hc o ho hm := by simpa [hc] using h.mainSnap o ho hm
  waits _ := h.waits .main

/-- The parts together are the invariant. -/
theorem State.Inv.of_parts {s : State} (hm : Memory.wf s.dev.mem = true) (hx : ¬ (s.xferDone = true ∧ s.xferPending = true))
    (hr : s.Running) (hs : s.Suspended) : s.Inv := by
  cases hc : s.ctx with
  | main =>
    have hidle := hs.irqIdle hc
    have hnone := Bank.next_of_idle hidle
    obtain ⟨hpath, hmask, -, -, hcap, hwait⟩ := hr
    rw [hc] at hpath hmask hcap hwait
    exact {
      mem := hm, mainPath := hpath, irqPath := .inl hidle, irqIdle := fun _ => hidle, masked := hc ▸ hmask
      notSuspended := by simp [hc], handlerIe := by simp [hc], handlerSnap := by simp [hc]
      mainSnap := by simpa [hc, State.bank] using hcap, transfer := hx
      waits := fun
        | .main => hwait
        | .irq => by simp [State.bank, hnone] }
  | irq =>
    obtain ⟨hpath, hmask, hie, hsnap, hcap, hwait⟩ := hr
    rw [hc] at hpath hmask hsnap hcap hwait
    exact {
      mem := hm, mainPath := hs.path hc, irqPath := hpath, irqIdle := by simp [hc], masked := hc ▸ hmask
      notSuspended := hs.unmasked, handlerIe := hie
      handlerSnap := fun _ o ho hmc => by
        rcases Bool.or_eq_true _ _ ▸ hmc with h | h
        · exact hsnap rfl o ho h
        · exact (hcap o ho h).trans (hie hc)
      mainSnap := by simpa [hc] using hs.captured hc, transfer := hx
      waits := fun
        | .main => hs.waits hc
        | .irq => hwait }

/-! ### The parts, one at a time -/

/-- An idle context has no micro-step to speak of. -/
theorem State.Running.of_idle {s : State} (h : (s.bank s.ctx).ph = []) (hi : s.ctx = .irq → s.ie = false) : s.Running := by
  have hn := Bank.next_of_idle h
  exact ⟨.inl h, by simp [hn], hi, by simp [hn], by simp [hn], by simp [hn]⟩

/-- The context that is not running keeps its part while the running one acts. -/
theorem State.Suspended.of_other {s t : State} (h : s.Suspended) (hc : t.ctx = s.ctx)
    (ho : ∀ d, d ≠ s.ctx → t.bank d = s.bank d)
    (hx : s.xferDone = true ∨ s.xferPending = true → t.xferDone = true ∨ t.xferPending = true) : t.Suspended := by
  have hirq : s.ctx = .main → t.irq = s.irq := fun h => ho .irq (by simp [h])
  have hmain : s.ctx = .irq → t.main = s.main := fun h => ho .main (by simp [h])
  constructor <;> rw [hc] <;> intro hs
  · exact hirq hs ▸ h.irqIdle hs
  · exact hmain hs ▸ h.path hs
  · exact hmain hs ▸ h.unmasked hs
  · exact hmain hs ▸ h.captured hs
  · exact hmain hs ▸ fun hn => hx (h.waits hs hn)

/-- What the running context has written and where it goes on: the micro-step before says what holds at the next. -/
theorem State.Running.advance {s u : State} {m : Micro} {rest l : List Micro} (h : s.Running)
    (hp : (s.bank s.ctx).ph = m :: rest) (hw : Wrote s.ctx m.op s u)
    (hl : l = rest ∨ (m.op = .l3 ∧ l = afterUnderflow rest)) : (u.advance s.ctx l).Running := by
  obtain ⟨hpath, hmask, hie, hsnap, hcap, -⟩ := h
  have hchain := hp ▸ Bank.onPath_chain hpath
  have hm : (s.bank s.ctx).next = some m.op := Bank.next_of_cons hp
  have hprep : ∀ o, l.head?.map Micro.op = some o → ∃ m', m'.op = o ∧ Prepares m m' := fun o ho => by
    obtain ⟨m', hm', rfl⟩ := Option.map_eq_some_iff.mp ho
    exact ⟨m', rfl, prepares_of_way hchain hl hm'⟩
  constructor <;> simp only [State.advance_ctx, State.advance_ie, State.advance_bank, State.advance_xferDone,
    State.advance_xferPending, Bank.next, hw.ctx]
  case path =>
    obtain hnil | ⟨i, hi, hsuf⟩ := hpath
    · simp [hp] at hnil
    · exact .inr ⟨i, hi.trans hw.cmd.symm, (suffix_of_way hchain hl).trans (hp ▸ hsuf)⟩
  case masked =>
    intro o ho hmo
    obtain ⟨m', rfl, hx, -⟩ := hprep o ho
    rw [hw.ie]
    rcases hx hmo with e | e | e | e | e | e <;> simp [e, hmask _ hm, Op.masked]
  case handlerIe =>
    intro hc
    rw [hw.ie, hie hc]
    split_ifs with h1 h2
    · rfl
    · exact hsnap hc _ hm (by rcases h2 with e | e <;> simp [e, Op.masked])
    · rfl
  case handlerSnap =>
    intro hc o ho hmo
    obtain ⟨m', rfl, hx, -⟩ := hprep o ho
    rw [hw.snap]
    have hlate := hsnap hc _ hm
    have hearly := fun he => (hcap _ hm he).trans (hie hc)
    rcases hx hmo with e | e | e | e | e | e <;> simp [e, Op.masked, Op.captured] at hlate hearly ⊢ <;> assumption
  case captured =>
    intro o ho hmo
    obtain ⟨m', rfl, -, hx, -⟩ := hprep o ho
    rw [hw.snap, hw.ie]
    rcases hx hmo with e | e <;> simp [e]
  case waits =>
    intro ho
    obtain ⟨m', hm', -, -, hx⟩ := hprep .x3 ho
    obtain ⟨b, hb⟩ := hx hm'
    rcases hw.transfer with ⟨-, -, hno⟩ | ⟨-, -, hpend⟩
    · exact absurd hb (hno b)
    · exact .inr hpend

/-! ### Every operation keeps the invariant -/

/-- The invariant does not read `HALT`, the tick switch, `BUS_READY`, the trace or the environment's turns. -/
theorem State.Inv.with_unread {s : State} (h : s.Inv) (hl tk br : Bool) (es : List Event) (e : List Move) :
    State.Inv { s with halt := hl, tickEn := tk, busReady := br, trace := es, env := e } :=
  ⟨h.mem, h.mainPath, h.irqPath, h.irqIdle, h.masked, h.notSuspended, h.handlerIe, h.handlerSnap, h.mainSnap, h.transfer,
    h.waits⟩

theorem runOp_inv {m : Micro} {rest : List Micro} {s t : State} (h : s.Inv) (hp : (s.bank s.ctx).ph = m :: rest)
    (hr : runOp s.ctx m.op rest s = .next t) : t.Inv := by
  cases runOp_ran hr with
  | stayed hl es => exact h.with_unread hl s.tickEn s.busReady es s.env
  | went u l hw hl =>
    refine .of_parts (by simpa using hw.mem h.mem) ?_ (h.running.advance hp hw hl) (h.suspended.of_other ?_ ?_ ?_)
    · rcases hw.transfer with ⟨hd, hx, -⟩ | ⟨-, hd, -⟩
      · simpa [hd, hx] using h.transfer
      · simp [hd]
    · simp [hw.ctx]
    · exact fun d hd => (State.advance_bank_other _ hd _).trans (hw.other d hd)
    · rcases hw.transfer with ⟨hd, hx, -⟩ | ⟨-, -, hx⟩
      · simp [hd, hx]
      · simp [hx]

theorem takeWord_inv {s : State} (h : s.Inv) : s.takeWord.Inv := by
  obtain ⟨hpath, hmask, hie, hsnap, hcap, hwait⟩ := h.running
  refine .of_parts (by simpa [State.takeWord] using h.mem) (by simpa [State.takeWord] using h.transfer) ?_
    (h.suspended.of_other ?_ ?_ ?_)
  · constructor <;> simp only [State.takeWord, State.setBank_ctx, State.setBank_bank, State.setBank_ie,
      State.setBank_xferDone, State.setBank_xferPending]
    · exact hpath
    · exact hmask
    · exact hie
    · exact hsnap
    · exact hcap
    · exact hwait
  · simp [State.takeWord]
  · exact fun d hd => State.setBank_bank_other _ _ _ _ hd
  · simp [State.takeWord]

/-- A command begins at E1 or L1, of which the invariant asks nothing. -/
theorem accept_inv {i : Instr} {s t : State} (h : s.Inv) (ha : accept i (commandPath i) s = .next t) : t.Inv := by
  obtain ⟨-, -, rfl⟩ := accept_eq_next ha
  have hnext : ∀ o, (commandPath i).head?.map Micro.op = some o → o.masked = false ∧ o.captured = false ∧ o ≠ .x3 := by
    intro o ho
    rcases commandPath_head i with e | e <;> obtain rfl := Option.some.inj (e.symm.trans ho) <;> decide
  refine .of_parts (by simpa using h.mem) (by simpa using h.transfer) ?_ (h.suspended.of_other ?_ ?_ ?_)
  · constructor <;> simp only [State.setBank_ctx, State.setBank_bank, State.setBank_ie, Bank.next]
    · exact .inr ⟨i, rfl, List.suffix_rfl⟩
    · exact fun o ho hm => by simp [(hnext o ho).1] at hm
    · exact h.handlerIe
    · exact fun _ o ho hm => by simp [(hnext o ho).1] at hm
    · exact fun o ho hm => by simp [(hnext o ho).2.1] at hm
    · exact fun ho => absurd rfl (hnext _ ho).2.2
  · simp
  · exact fun d hd => State.setBank_bank_other _ _ _ _ hd
  · simp

/-- A handler is entered with `IE = 1`: `main` then stands in no masked step, and what it has captured is 1. -/
theorem enterHandler_inv {s : State} (h : s.Inv) (ws : List CmdWord) (hc : s.ctx = .main) (hi : s.ie = true) :
    (s.enterHandler ws).Inv := by
  refine .of_parts h.mem h.transfer (.of_idle rfl fun _ => rfl) ⟨nofun, fun _ => h.mainPath, ?_, ?_, fun _ => h.waits .main⟩
  · intro _ o ho
    have hm := h.masked o (by simpa [hc, State.bank] using ho)
    simpa [hi] using hm
  · intro _ o ho hcap
    simpa [hc, hi] using h.mainSnap o ho hcap

/-- A handler returns to a `main` that it found outside the masked steps. -/
theorem leaveHandler_inv {s : State} (h : s.Inv) (hc : s.ctx = .irq) (hidle : s.irq.ph = []) : s.leaveHandler.Inv := by
  have hun := h.notSuspended hc
  refine .of_parts h.mem h.transfer ⟨h.mainPath, ?_, nofun, nofun, ?_, h.waits .main⟩
    ⟨fun _ => hidle, nofun, nofun, nofun, nofun⟩
  · exact fun o ho hm => by simp [hun o ho] at hm
  · exact fun o ho hcap => (h.mainSnap o ho hcap).trans (by simp [hc])

theorem completeTransfer_inv {s : State} (h : s.Inv) : s.completeTransfer.Inv := by
  have hmem : Memory.wf s.completeTransfer.dev.mem = true := by
    simp only [State.completeTransfer]
    split
    · exact h.mem
    · exact Device.exchange_wf h.mem ..
  exact ⟨hmem, h.mainPath, h.irqPath, h.irqIdle, h.masked, h.notSuspended, h.handlerIe, h.handlerSnap, h.mainSnap, by simp,
    fun _ _ => .inl rfl⟩

/-- A block that is idle in both contexts, with `main` running, meets the invariant whatever `IE` is. -/
theorem State.Inv.of_idle {s : State} (hm : Memory.wf s.dev.mem = true)
    (hx : ¬ (s.xferDone = true ∧ s.xferPending = true)) (hc : s.ctx = .main) (hmain : s.main.ph = []) (hirq : s.irq.ph = []) :
    s.Inv :=
  .of_parts hm hx (.of_idle (by simpa [hc, State.bank] using hmain) (by simp [hc])) ⟨fun _ => hirq, by simp [hc], by simp [hc],
    by simp [hc], by simp [hc]⟩

theorem resetWith_inv (c : Config) : (State.resetWith c).Inv :=
  .of_idle rfl nofun rfl rfl rfl

theorem resetNow_inv (s : State) : s.resetNow.Inv :=
  .of_idle rfl nofun rfl rfl rfl

/-- Whatever a turn can do keeps the invariant. -/
theorem Did.inv {who : Option Move} {s t : State} (hd : Did who s t) (h : s.Inv) : t.Inv := by
  cases hd with
  | nothing => exact h
  | op m rest t by_ ph halt run => exact runOp_inv h ph run
  | accepted i w t by_ idle offer word run => exact accept_inv (takeWord_inv h) run
  | returned by_ ctx halt idle port => exact leaveHandler_inv h ctx idle
  | entered tick cmds by_ may =>
    simp only [State.mayInterrupt, Bool.and_eq_true, decide_eq_true_eq] at may
    obtain ⟨⟨⟨⟨-, hc⟩, hi⟩, -⟩, -⟩ := may
    exact enterHandler_inv h cmds hc hi
  | completed => exact completeTransfer_inv h
  | configured => exact h.with_unread s.halt s.tickEn true s.trace s.env
  | tickWritten v => exact h.with_unread s.halt v s.busReady s.trace s.env
  | ieWritten v by_ halt ctx idle => exact .of_idle h.mem h.transfer ctx idle (h.irqIdle ctx)
  | wasReset => exact resetNow_inv s

theorem turn_inv {s t : State} (h : s.Inv) (ht : turn s = .next t) : t.Inv :=
  turn_keeps (fun s e hs => hs.with_unread s.halt s.tickEn s.busReady s.trace e) (fun _ _ _ hd hs => hd.inv hs) h ht

end Sys2Proof.Machine

namespace Sys2Proof

open Machine

/-- Settles O15: a step is made of turns, and each keeps the invariant. -/
theorem everyStepKeepsTheInvariant : Obligations.EveryStepKeepsTheInvariant := fun _ _ hs h =>
  step_keeps (fun _ _ => turn_inv) hs h

/-- Settles O16: a command is acceptance and then turns. -/
theorem everyCommandKeepsTheInvariant : Obligations.EveryCommandKeepsTheInvariant := fun _ _ _ hs h =>
  exec_keeps (fun _ _ _ => accept_inv) (fun _ _ => turn_inv) hs h

end Sys2Proof
end

section
/-! Chip-select follows mainline code's transactions as long as no handler uses the bus (10_state.md R23,
70_reset_and_hazards.md R186 (b)). -/

namespace Sys2Proof.Machine

/-! ### The line along a command's path -/

/-- Does a context with the command of code `k` at the phase `l` stand between the asserting and the deasserting step? Of the
parameters only `INIT_CS_LOW`, here `low`, matters. -/
def phaseAsserts (low : Bool) (k : CmdCode) (l : List Micro) : Bool :=
  Bank.asserting { Config.default with initCsLow := low } { Bank.reset with cmd := k, ph := l }

theorem Bank.asserting_eq (p : Config) (b : Bank) : b.asserting p = phaseAsserts p.initCsLow b.cmd b.ph := rfl

/-- Along the path of the command of code `k`, does each micro-step put the line where the phase after it wants it? -/
def lineKept (low : Bool) (k : CmdCode) : List Micro → Bool
  | [] => true
  | m :: rest => (!phaseAsserts low k rest) == m.op.csAfter low (!phaseAsserts low k (m :: rest)) && lineKept low k rest

theorem lineKept_cons {low : Bool} {k : CmdCode} {m : Micro} {rest : List Micro} (h : lineKept low k (m :: rest) = true) :
    (!phaseAsserts low k rest) = m.op.csAfter low (!phaseAsserts low k (m :: rest)) ∧ lineKept low k rest = true := by
  simpa [lineKept] using h

theorem lineKept_of_append {low : Bool} {k : CmdCode} {l : List Micro} :
    ∀ front : List Micro, lineKept low k (front ++ l) = true → lineKept low k l = true
  | [], h => h
  | _ :: front, h => lineKept_of_append front (lineKept_cons h).2

theorem commandPath_lineKept (low : Bool) (i : Instr) : lineKept low i.code (commandPath i) = true :=
  match i with
  | .enter _ _ => (by decide : ∀ b, lineKept b 1 enterPath = true) low
  | .leave _ _ => (by decide : ∀ b, lineKept b 2 leavePath = true) low
  | .exchange _ _ => (by decide : ∀ b, lineKept b 3 exchangePath = true) low
  | .init _ _ => (by decide : ∀ b, lineKept b 4 initPath = true) low
  | .read _ _ => (by decide : ∀ b, lineKept b 5 readPath = true) low
  | .write _ _ => (by decide : ∀ b, lineKept b 6 writePath = true) low

theorem Bank.onPath_lineKept {b : Bank} (low : Bool) (h : b.onPath) : lineKept low b.cmd b.ph = true := by
  obtain h | ⟨i, hi, front, hf⟩ := h
  · rw [h]; rfl
  · exact lineKept_of_append front (hf ▸ hi ▸ commandPath_lineKept low i)

/-- No command begins with the line asserted. -/
theorem phaseAsserts_commandPath (low : Bool) (i : Instr) : phaseAsserts low i.code (commandPath i) = false := by
  cases i <;> simp [phaseAsserts, Bank.asserting, commandPath, enterPath, leavePath, exchangePath, initPath, readPath,
    writePath, enterSteps, leaveSteps, exchangeSteps]

/-- On both ways on from a micro-step the line stands where the phase that is left wants it: neither L3 nor L4, which an
Underflow passes over, moves it. -/
theorem line_of_way {low : Bool} {k : CmdCode} {m : Micro} {rest l : List Micro} (hc : (m :: rest).IsChain Follows)
    (hk : lineKept low k (m :: rest) = true) (hl : l = rest ∨ (m.op = .l3 ∧ l = afterUnderflow rest)) :
    (!phaseAsserts low k l) = m.op.csAfter low (!phaseAsserts low k (m :: rest)) := by
  obtain ⟨hstep, hrest⟩ := lineKept_cons hk
  obtain rfl | ⟨hm, rfl⟩ := hl
  · exact hstep
  · cases rest with
    | nil => exact hstep
    | cons m₁ rest =>
      obtain ⟨⟨-, -, -, -, hl4, -⟩, -⟩ := List.isChain_cons_cons.mp hc
      rw [afterUnderflow_eq_tail hc hm, ← hstep, List.tail_cons, (lineKept_cons hrest).1, hl4 hm]
      rfl

/-! ### A handler off the bus -/

/-- The code of a decoded word is its `op` field (30_encoding.md R62). -/
theorem code_of_decode {w : CmdWord} {i : Instr} (h : decode w = .command i) : i.code = opField w := by
  unfold decode at h
  split_ifs at h with h1 h2 h3 h4 h5 h6 <;> cases h <;> simp [Instr.code, *]

/-- The micro-steps of ENTER and LEAVE leave the line alone. -/
theorem csAfter_of_gate {b : Bank} (hp : b.onPath) (hg : b.cmd = 1 ∨ b.cmd = 2) {m : Micro} (hm : m ∈ b.ph) (low v : Bool) :
    m.op.csAfter low v = v := by
  obtain h | ⟨i, hi, hsuf⟩ := hp
  · simp [h] at hm
  · have hmem := hsuf.mem hm
    cases i <;> simp [← hi, Instr.code] at hg
    case enter =>
      have : ∀ x ∈ enterPath, ∀ low v, x.op.csAfter low v = v := by decide
      exact this m hmem low v
    case leave =>
      have : ∀ x ∈ leavePath, ∀ low v, x.op.csAfter low v = v := by decide
      exact this m hmem low v

theorem State.HandlersOffBus.of_same_irq {s t : State} (h : s.HandlersOffBus) (hc : t.cfg = s.cfg) (hi : t.irq = s.irq) :
    t.HandlersOffBus :=
  ⟨hc ▸ h.handlers, hi ▸ h.port, hi ▸ h.running⟩

theorem runOp_handlersOffBus {m : Micro} {rest : List Micro} {s t : State} (h : s.HandlersOffBus)
    (hp : (s.bank s.ctx).ph = m :: rest) (hr : runOp s.ctx m.op rest s = .next t) : t.HandlersOffBus := by
  cases runOp_ran hr with
  | stayed => exact h.of_same_irq rfl rfl
  | went u l hw =>
    have hcfg : (u.advance s.ctx l).cfg = s.cfg := by simp [hw.cfg]
    cases hc : s.ctx with
    | main =>
      rw [hc] at hw hcfg
      exact h.of_same_irq hcfg ((u.advance_main_irq l).trans (hw.other .irq (by decide)))
    | irq =>
      rw [hc] at hw hcfg hp
      have hirq := u.advance_irq l
      refine ⟨hcfg ▸ h.handlers, ?_, .inr ?_⟩
      · rw [hirq]; exact hw.port ▸ h.port
      · rw [hirq]; exact hw.cmd ▸ h.running.resolve_left (by rw [show s.irq.ph = m :: rest from hp]; simp)

/-- A handler's next word is one of its list, so an ENTER or a LEAVE. -/
theorem accept_handlersOffBus {w : CmdWord} {i : Instr} {s t : State} (h : s.HandlersOffBus)
    (ho : (s.bank s.ctx).port = w :: (s.bank s.ctx).port.tail) (hd : decode w = .command i)
    (ha : accept i (commandPath i) s.takeWord = .next t) : t.HandlersOffBus := by
  have hcfg := (accept_cfg ha).trans s.takeWord_cfg
  obtain ⟨-, -, rfl⟩ := accept_eq_next ha
  cases hc : s.ctx with
  | main => exact h.of_same_irq hcfg (by simp [State.takeWord, State.setBank, hc])
  | irq =>
    rw [hc] at ho
    have hport : s.irq.port = w :: s.irq.port.tail := ho
    refine ⟨hcfg ▸ h.handlers, fun v hv => h.port v ?_, .inr ?_⟩
    · exact List.mem_of_mem_tail (by simpa [State.takeWord, State.setBank, State.bank, hc] using hv)
    · simpa [State.takeWord, State.setBank, hc, code_of_decode hd] using h.port w (hport ▸ List.mem_cons_self)

theorem Did.handlersOffBus {who : Option Move} {s t : State} (hd : Did who s t) (h : s.HandlersOffBus) : t.HandlersOffBus := by
  cases hd with
  | op m rest t by_ ph halt run => exact runOp_handlersOffBus h ph run
  | accepted i w t by_ idle offer word run => exact accept_handlersOffBus h offer word run
  | entered tick cmds by_ may =>
    simp only [State.mayInterrupt, Bool.and_eq_true, Bool.or_eq_true, decide_eq_true_eq] at may
    refine ⟨h.handlers, ?_, .inl rfl⟩
    obtain rfl | hmem := may.2
    · exact nofun
    · exact h.handlers cmds hmem
  | wasReset => exact ⟨h.handlers, nofun, .inl rfl⟩
  | nothing | returned | completed | configured | ieWritten | tickWritten => exact h.of_same_irq rfl rfl

/-! ### The line -/

/-- The discipline reads `CS_N`, the bank of `main` and the parameters. -/
theorem State.CsDiscipline.of_same_main {s t : State} (h : s.CsDiscipline) (hn : t.csN = s.csN) (hm : t.main = s.main)
    (hc : t.cfg = s.cfg) : t.CsDiscipline := by
  rw [State.CsDiscipline, hn, hm, hc]; exact h

/-- A micro-step of `main` moves the line with the phase, one of a handler leaves both. -/
theorem runOp_csDiscipline {m : Micro} {rest : List Micro} {s t : State} (hi : s.Inv) (hb : s.HandlersOffBus)
    (h : s.CsDiscipline) (hp : (s.bank s.ctx).ph = m :: rest) (hr : runOp s.ctx m.op rest s = .next t) : t.CsDiscipline := by
  cases runOp_ran hr with
  | stayed => exact h
  | went u l hw hl =>
    cases hc : s.ctx with
    | main =>
      rw [hc] at hw hp
      have hph : s.main.ph = m :: rest := hp
      have hcmd : u.main.cmd = s.main.cmd := hw.cmd
      have hline := line_of_way (hph ▸ Bank.onPath_chain hi.mainPath)
        (hph ▸ Bank.onPath_lineKept s.cfg.initCsLow hi.mainPath) hl
      rw [State.CsDiscipline, Bank.asserting_eq, State.advance_main, State.advance_csN, State.advance_cfg, hw.csN, hw.cfg,
        hcmd, hline, h, Bank.asserting_eq, hph]
    | irq =>
      rw [hc] at hw hp
      have hph : s.irq.ph = m :: rest := hp
      have hgate := hb.running.resolve_left (by simp [hph])
      refine h.of_same_main ?_ ((u.advance_irq_main l).trans (hw.other .main (by decide))) ?_
      · rw [State.advance_csN, hw.csN, csAfter_of_gate hi.irqPath hgate (by simp [hph])]
      · rw [State.advance_cfg, hw.cfg]

/-- A command begins, as an idle `main` stood, with the line deasserted. -/
theorem accept_csDiscipline {i : Instr} {s t : State} (h : s.CsDiscipline)
    (ha : accept i (commandPath i) s.takeWord = .next t) : t.CsDiscipline := by
  obtain ⟨-, hidle, rfl⟩ := accept_eq_next ha
  cases hc : s.ctx with
  | main =>
    have hph : s.main.ph = [] := by simpa [State.takeWord, State.setBank, State.bank, hc] using hidle
    have hcs : s.csN = true := by rw [h, Bank.asserting_eq, hph]; rfl
    simp [State.CsDiscipline, State.takeWord, State.setBank, hc, hcs, Bank.asserting_eq, phaseAsserts_commandPath]
  | irq => exact h.of_same_main (by simp [State.takeWord]) (by simp [State.takeWord, State.setBank, hc]) (by simp)

theorem Did.csDiscipline {who : Option Move} {s t : State} (hd : Did who s t) (hi : s.Inv) (hb : s.HandlersOffBus)
    (h : s.CsDiscipline) : t.CsDiscipline := by
  cases hd with
  | op m rest t by_ ph halt run => exact runOp_csDiscipline hi hb h ph run
  | accepted i w t by_ idle offer word run => exact accept_csDiscipline h run
  | wasReset => rfl
  | nothing | returned | entered | completed | configured | ieWritten | tickWritten => exact h

end Sys2Proof.Machine

namespace Sys2Proof

open Machine

/-- Settles O17: the discipline, the handlers' duty and the machine's invariant are kept together by every turn. -/
theorem chipSelectFollowsTheTransaction : Obligations.ChipSelectFollowsTheTransaction := by
  intro s t hi hb hc h
  have key : t.Inv ∧ t.HandlersOffBus ∧ t.CsDiscipline := by
    refine step_keeps_of_did (P := fun u => u.Inv ∧ u.HandlersOffBus ∧ u.CsDiscipline) ?_ ?_ ⟨hi, hb, hc⟩ h
    · rintro u e ⟨hi, hb, hc⟩
      exact ⟨hi.with_unread u.halt u.tickEn u.busReady u.trace e, hb.of_same_irq rfl rfl, hc⟩
    · rintro who u v hd ⟨hi, hb, hc⟩
      exact ⟨hd.inv hi, hd.handlersOffBus hb, hd.csDiscipline hi hb hc⟩
  exact key.2

end Sys2Proof
end

section
/-! What a turn does to the counter, to the trace and in a halted block (10_state.md R14, R19, R34), and the state after
reset (10_state.md R32). -/

namespace Sys2Proof.Machine

/-! ### The counter -/

@[simp] theorem State.raise_nc (s : State) (k : ErrorKind) : (s.raise k).nc = s.nc := by cases k <;> rfl

theorem accept_nc {i : Instr} {path : List Micro} {s t : State} (h : accept i path s = .next t) : t.nc = s.nc := by
  obtain ⟨-, -, rfl⟩ := accept_eq_next h
  simp

/-- A micro-step that changes `NC` is E3 below 255 or L3 above 0 (40_critical_section.md R80, R86). -/
theorem runOp_nc_ne {c : Ctx} {o : Op} {rest : List Micro} {s t : State} (h : runOp c o rest s = .next t) (hn : t.nc ≠ s.nc) :
    (o = .e3 ∧ s.nc.toNat < 255 ∧ t.nc.toNat = s.nc.toNat + 1) ∨
      (o = .l3 ∧ 0 < s.nc.toNat ∧ t.nc.toNat + 1 = s.nc.toNat) := by
  obtain ⟨ho, rfl⟩ | ⟨-, -, rfl⟩ | ⟨-, -, rfl⟩ | ⟨-, -, rfl⟩ := runOp_eq_next h
  case inl =>
    rw [State.advance_nc, effect_nc] at hn ⊢
    split_ifs at hn ⊢ with he hl
    · subst he
      have hlt : s.nc.toNat < 255 := by simpa [State.ordinary] using ho
      exact .inl ⟨rfl, hlt, by bv_omega⟩
    · subst hl
      have hpos : 0 < s.nc.toNat := by simpa [State.ordinary] using ho
      exact .inr ⟨rfl, hpos, by bv_omega⟩
    · exact absurd rfl hn
  all_goals simp at hn

/-- Of all that a turn can do, only a micro-step and a reset change `NC` (10_state.md R13). -/
theorem Did.of_nc_ne {who : Option Move} {s t : State} (hd : Did who s t) (hn : t.nc ≠ s.nc) :
    who = some .reset ∨ ∃ m rest, (s.bank s.ctx).ph = m :: rest ∧ runOp s.ctx m.op rest s = .next t := by
  cases hd with
  | op m rest t by_ ph halt run => exact .inr ⟨m, rest, ph, run⟩
  | accepted i w t by_ idle offer word run =>
    exact absurd ((accept_nc run).trans (State.setBank_nc ..)) hn
  | wasReset by_ => exact .inl by_
  | nothing | returned | entered | completed | configured | ieWritten | tickWritten => exact absurd rfl hn

/-! ### The trace -/

/-- `NC` and `CS_N` are what the trace last said of them (10_state.md R34). -/
def State.Told (s : State) : Prop :=
  s.nc = ((s.trace.filterMap Event.ncValue).getLast?).getD 0 ∧
    s.csN = ((s.trace.filterMap Event.csValue).getLast?).getD true

/-- Appending one event keeps that where the registers take the values it names. -/
theorem State.Told.append {s t : State} (h : s.Told) {e : Event} (ht : t.trace = s.trace ++ [e])
    (hn : t.nc = e.ncValue.getD s.nc) (hc : t.csN = e.csValue.getD s.csN) : t.Told := by
  rw [State.Told, ht, hn, hc, h.1, h.2]
  constructor <;> cases e <;> simp [Event.ncValue, Event.csValue]

theorem State.Told.of_same {s t : State} (h : s.Told) (ht : t.trace = s.trace) (hn : t.nc = s.nc) (hc : t.csN = s.csN) :
    t.Told := by
  rw [State.Told, ht, hn, hc]; exact h

/-- Every micro-step records what it writes. -/
theorem effect_told (c : Ctx) {s : State} (h : s.Told) (o : Op) : (effect c s o).Told := by
  cases o with
  | e1 | l1 => exact h.of_same (State.capture_trace ..) (State.capture_nc ..) (State.capture_csN ..)
  | e2 | l2 | e5 | l5 => exact h.append rfl rfl rfl
  | e3 | l3 => exact h.append rfl rfl rfl
  | e4 | l4 =>
    simp only [effect]; split
    · exact h.append rfl rfl rfl
    · exact h
  | x2 b => exact h.append (State.startTransfer_trace ..) (State.startTransfer_nc ..) (State.startTransfer_csN ..)
  | x3 => exact h
  | x4 => exact h.append (State.receive_trace ..) (State.receive_nc ..) (State.receive_csN ..)
  | i1 => exact h.append rfl rfl rfl
  | csHigh | csLow => exact h.append (State.writeCs_trace ..) (State.writeCs_nc ..) (State.writeCs_csN ..)
  | i3 =>
    simp only [effect]; split
    · exact h.append (State.writeCs_trace ..) (State.writeCs_nc ..) (State.writeCs_csN ..)
    · exact h
  | i6 => exact h.append (State.endInit_trace ..) (State.endInit_nc ..) (State.endInit_csN ..)
  | t6 => exact h.of_same (State.setBank_trace ..) (State.setBank_nc ..) (State.setBank_csN ..)

theorem advance_told (c : Ctx) {s : State} (h : s.Told) (l : List Micro) : (s.advance c l).Told := by
  cases l with
  | nil => exact h.append (State.finish_trace ..) (State.finish_nc ..) (State.finish_csN ..)
  | cons => exact h.of_same (State.setPh_trace ..) (State.setPh_nc ..) (State.setPh_csN ..)

theorem raise_told {s : State} (h : s.Told) (k : ErrorKind) : (s.raise k).Told := by
  cases k <;> exact h.append rfl rfl rfl

theorem runOp_told {c : Ctx} {o : Op} {rest : List Micro} {s t : State} (h : s.Told) (hr : runOp c o rest s = .next t) :
    t.Told := by
  obtain ⟨-, rfl⟩ | ⟨-, -, rfl⟩ | ⟨-, -, rfl⟩ | ⟨-, -, rfl⟩ := runOp_eq_next hr
  · exact advance_told c (effect_told c h o) rest
  · exact raise_told h .overflow
  · exact advance_told c (raise_told h .underflow) _
  · exact h

theorem Did.told {who : Option Move} {s t : State} (hd : Did who s t) (h : s.Told) : t.Told := by
  cases hd with
  | op m rest t by_ ph halt run => exact runOp_told h run
  | accepted i w t by_ idle offer word run =>
    obtain ⟨-, -, rfl⟩ := accept_eq_next run
    exact h.of_same (by simp [State.takeWord]) (by simp [State.takeWord]) (by simp [State.takeWord])
  | returned | entered => exact h.append rfl rfl rfl
  | wasReset => exact ⟨rfl, rfl⟩
  | nothing | completed | configured | ieWritten | tickWritten => exact h

/-! ### A halted block -/

theorem accept_of_halt {i : Instr} {path : List Micro} {s : State} (h : s.halt = true) :
    accept i path s = .fault .halted := by
  simp [accept, h]

/-- A halted block fetches nothing: a step is one turn. -/
theorem step_of_halt {s : State} (h : s.halt = true) : step s = turn s := by
  simp [step, State.fetch, State.mayFetch, otherTurn, h]

/-- What a turn can do to a halted block, and what it leaves: only reset writes a register of the block's own. -/
theorem Did.of_halt {who : Option Move} {s t : State} (hd : Did who s t) (h : s.halt = true) :
    (who = some .reset ∧ t = s.resetNow) ∨
      (t.halt = true ∧ t.nc = s.nc ∧ t.main = s.main ∧ t.irq = s.irq ∧ t.ctx = s.ctx ∧ t.ie = s.ie ∧ t.csN = s.csN ∧
        t.txd = s.txd ∧ t.rspData = s.rspData ∧ t.trace = s.trace) := by
  cases hd with
  | op m rest t by_ ph halt run => simp [h] at halt
  | accepted i w t by_ idle offer word run =>
    have hw : s.takeWord.halt = true := by simp [State.takeWord, h]
    simp [accept_of_halt hw] at run
  | returned by_ ctx halt => simp [h] at halt
  | entered tick cmds by_ may => simp [State.mayInterrupt, h] at may
  | ieWritten v by_ halt => simp [h] at halt
  | wasReset by_ => exact .inl ⟨by_, rfl⟩
  | nothing | completed | configured | tickWritten => exact .inr ⟨h, rfl, rfl, rfl, rfl, rfl, rfl, rfl, rfl, rfl⟩

end Sys2Proof.Machine

namespace Sys2Proof

open Machine

/-- Settles O9: a halted block accepts nothing, and of the turns that are left only reset writes its registers. -/
theorem onlyResetLeavesTheHaltedState : Obligations.OnlyResetLeavesTheHaltedState := by
  refine fun s hh => ⟨fun i => ?_, fun he => ?_, fun t h => ?_⟩
  · rw [exec_eq_runCommand, runCommand, accept_of_halt hh]; rfl
  · rw [step_of_halt hh]; simp [turn, he, hh]
  · rw [step_of_halt hh] at h
    exact (turn_did h).of_halt hh

/-- Settles O11: only a micro-step and a reset change `NC`, and the micro-steps that do run with interrupts off. -/
theorem counterMovesByOneWithInterruptsOff : Obligations.CounterMovesByOneWithInterruptsOff := by
  intro s t hi h hn hr
  obtain hw | ⟨m, rest, hp, hrun⟩ := (turn_did h).of_nc_ne hn
  · exact absurd hw hr
  · have hnext : (s.bank s.ctx).next = some m.op := Bank.next_of_cons hp
    rcases runOp_nc_ne hrun hn with ⟨ho, hlt⟩ | ⟨ho, hlt⟩ <;> rw [ho] at hnext
    · exact ⟨hi.masked _ hnext rfl, .inl ⟨hnext, hlt⟩⟩
    · exact ⟨hi.masked _ hnext rfl, .inr ⟨hnext, hlt⟩⟩

/-- Settles O18: every write of `NC` or `CS_N` appends the event that names its value, and no other event names one. -/
theorem traceShowsCounterAndChipSelect : Obligations.TraceShowsCounterAndChipSelect := fun _ _ hs h =>
  step_keeps_of_did (P := State.Told) (fun _ _ hs => hs) (fun _ _ _ hd hs => hd.told hs) hs h

/-- Settles O14: after reset both contexts are idle, `NC` is 0, the line is deasserted and no handler has a word to offer. -/
theorem invariantsHoldAfterReset : Obligations.InvariantsHoldAfterReset := fun c =>
  ⟨resetWith_inv c, .inl rfl, rfl, fun hc => ⟨hc, nofun, .inl rfl⟩⟩

/-- Settles O48: the values are those that `State.resetWith` writes. -/
theorem resetValues : Obligations.ResetValues := fun _ =>
  ⟨rfl, rfl, rfl, rfl, rfl, rfl, rfl, rfl, rfl, rfl, rfl, rfl, rfl, rfl⟩

end Sys2Proof
end

section
/-! The SRAM device (20_memory.md R48 to R55): its cells after a list of writes, the fifth byte of a data frame, and what a
frame of no specified meaning leaves. -/

namespace Sys2Proof.Machine

/-! ### Many writes -/

/-- `MemWrite` once for each pair of the list, in order (20_memory.md R48). -/
def Device.writeAll (d : Device) (ws : List (Addr × Byte)) : Device :=
  ws.foldl (fun e w => e.write w.1 w.2) d

@[simp] theorem Device.writeAll_nil (d : Device) : d.writeAll [] = d := rfl

theorem Device.writeAll_concat (d : Device) (ws : List (Addr × Byte)) (w : Addr × Byte) :
    d.writeAll (ws ++ [w]) = (d.writeAll ws).write w.1 w.2 :=
  List.foldl_concat ..

theorem Device.read_writeAll (d : Device) (ws : List (Addr × Byte)) (x : Addr) :
    (d.writeAll ws).read x = ((ws.reverse.find? fun w => w.1 = x).map Prod.snd).getD (d.read x) := by
  induction ws using List.reverseRecOn with
  | nil => rfl
  | append_singleton ws w ih =>
    rw [Device.writeAll_concat, List.reverse_concat]
    by_cases hx : w.1 = x
    · subst hx
      simp [Device.read_write_self]
    · rw [Device.read_write_other _ _ (Ne.symm hx), ih]
      simp [hx]

theorem Device.writeAll_wf {d : Device} (h : Memory.wf d.mem = true) (ws : List (Addr × Byte)) :
    Memory.wf (d.writeAll ws).mem = true := by
  induction ws using List.reverseRecOn with
  | nil => exact h
  | append_singleton ws w ih =>
    rw [Device.writeAll_concat]
    exact Memory.write_wf ih w.1 w.2

/-! ### The fifth byte of a data frame -/

section
variable {d : Device} {p : Config} {ready : Bool} {c : Ctx} {o : Byte} {op h l : Byte} {a : Addr}

/-- A fifth byte keeps a data frame in shape, whatever it is, when the sender of the header sends it on a configured bus
(30_encoding.md R67, R68). -/
theorem Device.spoils_fifth_byte (hb : d.frBad = false) (hop : op = p.opRead ∨ op = p.opWrite)
    (hf : d.fr = [op, p.opExt, h, l]) (o : Byte) : d.spoils p true d.frOwner o = false := by
  have hd : Device.beginsData p (d.fr ++ [o]) = true := by simpa [hf, Device.beginsData] using hop
  simp [Device.spoils, hb, hd]

theorem Device.header_of_fr (hf : d.fr = [op, p.opExt, h, l]) : Device.header p d.fr = some (op, h ++ l) := by
  simp [hf, Device.header]

/-- The byte after a whole header: stored in a write frame, without effect on the cells in a read frame (20_memory.md R50, R51). -/
theorem Device.exchange_of_header (hs : d.spoils p ready c o = false) (hk : d.known = true)
    (hh : Device.header p d.fr = some (op, a)) (n : Nat) :
    d.exchange p ready c o n = if op = p.opWrite then (d.write a o).append c o else d.append c o := by
  simp [Device.exchange, hs, hk, hh]

/-- The reply to the byte after a whole header: the cell in a read frame, a draw in a write frame (20_memory.md R50, R52). -/
theorem Device.reply_of_header (hs : d.spoils p ready c o = false) (hk : d.known = true)
    (hh : Device.header p d.fr = some (op, a)) (n : Nat) :
    d.reply p ready c o n = if op = p.opRead then d.read a else Config.freeByte n := by
  simp [Device.reply, hs, hk, hh]

/-! ### Frames of no specified meaning -/

@[simp] theorem Device.unspecify_read (d : Device) (n : Nat) (x : Addr) :
    (d.unspecify n).read x = Config.freeCell (n + 1) x := rfl

@[simp] theorem Device.corrupt_read (d : Device) (n : Nat) (x : Addr) :
    (d.corrupt n).read x = Config.freeCell (n + 1) x := rfl

/-- A byte that breaks the frame, or one of a data frame before the chip is in its known mode, loses every cell
(20_memory.md R54). -/
theorem Device.exchange_read_of_lost
    (hl : d.spoils p ready c o = true ∨ (d.known = false ∧ Device.beginsInit p (d.fr ++ [o]) = false)) (n : Nat) (x : Addr) :
    (d.exchange p ready c o n).read x = Config.freeCell (n + 1) x := by
  by_cases hs : d.spoils p ready c o = true
  · simp [Device.exchange, hs]
  · obtain ⟨hk, hi⟩ := hl.resolve_left hs
    simp [Device.exchange, hs, hk, hi]

/-- Nothing is known of the reply to a byte that breaks the frame, nor of any reply before the chip is in its known mode
(20_memory.md R52, R54). -/
theorem Device.reply_of_unknown (hl : d.spoils p ready c o = true ∨ d.known = false) (n : Nat) :
    d.reply p ready c o n = Config.freeByte n := by
  rcases hl with hs | hk
  · simp [Device.reply, hs]
  · simp [Device.reply, hk]

/-- A rise that ends a broken frame, or one cut short, loses every cell (20_memory.md R54). -/
theorem Device.csRise_read_of_broken (hb : d.frBad = true ∨ Device.wholeFrame p d.fr = false) (n : Nat) (x : Addr) :
    (d.csRise p n).read x = Config.freeCell (n + 1) x := by
  have hc : d.csRise p n = d.corrupt n := if_pos (by simpa using hb)
  rw [hc, Device.corrupt_read]

end

/-! ### Commands that are not accepted -/

theorem accept_of_busy {i : Instr} {path : List Micro} {s : State} (hh : s.halt = false) (hb : (s.bank s.ctx).ph ≠ []) :
    accept i path s = .fault .commandInProgress := by
  simp [accept, hh, hb]

theorem accept_of_equal_opCodes {i : Instr} {path : List Micro} {s : State} (hh : s.halt = false)
    (hi : (s.bank s.ctx).ph = []) (hc : s.cfg.opRead = s.cfg.opWrite) : accept i path s = .refused .equalOpCodes := by
  simp [accept, hh, hi, Config.wellFormed, hc]

end Sys2Proof.Machine

namespace Sys2Proof

open Machine

/-- Settles O30, by induction on the list of writes from its end. -/
theorem lastWriteToACellWins : Obligations.LastWriteToACellWins := fun d ws =>
  ⟨d.read_writeAll ws, fun h => Device.writeAll_wf h ws⟩

/-- Settles O31: the fifth byte keeps the frame in shape, and the op-code of its header is not that of a write. -/
theorem readFrameIsAnsweredFromTheCell : Obligations.ReadFrameIsAnsweredFromTheCell := by
  intro d p h l o n hne hk hb hf
  have hs := Device.spoils_fifth_byte hb (.inl rfl) hf o
  have hh := Device.header_of_fr hf
  have he : d.exchange p true d.frOwner o n = d.append d.frOwner o :=
    (Device.exchange_of_header hs hk hh n).trans (if_neg hne)
  refine ⟨(Device.reply_of_header hs hk hh n).trans (if_pos rfl), fun x => ?_, ?_⟩
  · rw [he, Device.append_read]
  · rw [he, Device.append_known, hk]

/-- Settles O32: the fifth byte keeps the frame in shape, and the op-code of its header is that of a write. -/
theorem writeFrameStoresTheByte : Obligations.WriteFrameStoresTheByte := by
  intro d p h l o n hne hk hb hf
  have hs := Device.spoils_fifth_byte hb (.inr rfl) hf o
  have hh := Device.header_of_fr hf
  have he : d.exchange p true d.frOwner o n = (d.write (h ++ l) o).append d.frOwner o :=
    (Device.exchange_of_header hs hk hh n).trans (if_pos rfl)
  refine ⟨?_, fun x hx => ?_, (Device.reply_of_header hs hk hh n).trans (if_neg hne.symm)⟩
  · rw [he, Device.append_read, Device.read_write_self]
  · rw [he, Device.append_read, Device.read_write_other _ _ hx]

/-- Settles O33: each of the three ways makes every cell the free value of the epoch that begins there. -/
theorem brokenFrameLosesEveryCell : Obligations.BrokenFrameLosesEveryCell := fun _ _ _ _ _ n =>
  ⟨fun hl => ⟨Device.exchange_read_of_lost hl n, Device.reply_of_unknown (hl.imp_right And.left) n⟩,
    fun hb => Device.csRise_read_of_broken hb n⟩

/-- Settles O34: both values of a completion are chosen by `CS_N`. -/
theorem unselectedExchangeDoesNotReachTheDevice : Obligations.UnselectedExchangeDoesNotReachTheDevice :=
  fun _ hc => ⟨if_pos hc, if_pos hc⟩

/-- Settles O52: acceptance stops, and with it the command. -/
theorem commandsNotAccepted : Obligations.CommandsNotAccepted := by
  refine fun i s hh => ⟨fun hb => ?_, fun hi hc => ?_⟩
  · rw [exec_eq_runCommand, runCommand, accept_of_busy hh hb]; rfl
  · rw [exec_eq_runCommand, runCommand, accept_of_equal_opCodes hh hi hc]; rfl

end Sys2Proof
end

section
/-! The decoder and the encoder (30_encoding.md R60 to R66): a word is its three fields, a command is its code and its two
operands, and decoding matches the one with the other. -/

namespace Sys2Proof

/-! ### The fields of a word -/

/-- The three fields are the whole word, from the most significant bit down (30_encoding.md R60). -/
theorem fields_append (w : CmdWord) : (opField w ++ addrField w ++ dataField w : BitVec (3 + 16 + 8)) = w := by
  unfold opField addrField dataField
  rw [BitVec.extractLsb'_append_extractLsb'_eq_extractLsb' (by rfl),
    BitVec.extractLsb'_append_extractLsb'_eq_extractLsb' (by rfl)]
  exact BitVec.extractLsb'_eq_self

/-- The word of a command carries its code and both operands, whole. -/
theorem fields_encode (i : Instr) :
    opField (encode i) = i.code ∧ addrField (encode i) = i.addr ∧ dataField (encode i) = i.data :=
  Laws.Fields.fields i.code i.addr i.data

/-! ### The words that are commands -/

/-- A word is the command whose code and operands stand in its fields (30_encoding.md R61, R62). -/
theorem decode_eq_command_iff {w : CmdWord} {i : Instr} :
    decode w = .command i ↔ opField w = i.code ∧ addrField w = i.addr ∧ dataField w = i.data := by
  constructor
  · intro h
    have hop : opField w = i.code := (Machine.code_of_decode h).symm
    unfold decode at h
    split_ifs at h <;> cases h <;> exact ⟨hop, rfl, rfl⟩
  · rintro ⟨hop, ha, hd⟩
    cases i <;> simp only [Instr.code, Instr.addr, Instr.data] at hop ha hd <;> simp [decode, hop, ha, hd]

/-! ### The words that are not -/

theorem decode_of_code000 {w : CmdWord} (h : opField w = 0) : decode w = .invalid .code000 := by
  simp [decode, h]

theorem decode_of_code111 {w : CmdWord} (h : opField w = 7) : decode w = .invalid .code111 := by
  simp [decode, h]

/-- The reserved codes are those that the table leaves out (30_encoding.md R65). -/
theorem decode_invalid_iff (w : CmdWord) : (∃ r, decode w = .invalid r) ↔ (opField w = 0 ∨ opField w = 7) := by
  constructor
  · rintro ⟨r, hr⟩
    have hcodes : ∀ c : CmdCode, c ≠ 1 → c ≠ 2 → c ≠ 3 → c ≠ 4 → c ≠ 5 → c ≠ 6 → c = 0 ∨ c = 7 := by decide
    unfold decode at hr
    split_ifs at hr with h1 h2 h3 h4 h5 h6 <;> exact hcodes _ h1 h2 h3 h4 h5 h6
  · rintro (h | h)
    · exact ⟨_, decode_of_code000 h⟩
    · exact ⟨_, decode_of_code111 h⟩

end Sys2Proof

namespace Sys2Proof.Machine

/-! ### Meeting a word on the port -/

/-- A step that meets a reserved code is refused by that code's name (30_encoding.md R65). -/
theorem step_of_invalid {s s' : State} {w : CmdWord} {r : Reserved} (hf : s.fetch = some (w, s'))
    (hd : decode w = .invalid r) : step s = .refused (reservedRefusal r) := by
  simp only [step, hf, hd]

/-- A step that meets a command runs it, from the state that fetching left. -/
theorem step_of_command {s s' : State} {w : CmdWord} {i : Instr} (hf : s.fetch = some (w, s'))
    (hd : decode w = .command i) : step s = exec i s' := by
  simp only [step, hf, hd]

/-- What an idle context in a running block offers when its turn has come. -/
theorem fetch_of_offered {s : State} {w : CmdWord} {ws : List CmdWord} (hh : s.halt = false) (hi : (s.bank s.ctx).ph = [])
    (he : s.env = [] ∨ s.env.head? = some .seq) (hp : (s.bank s.ctx).port = w :: ws) :
    s.fetch = some (w, { s.setBank s.ctx { s.bank s.ctx with port := ws } with env := s.env.tail }) := by
  have hm : s.mayFetch = true := by simp [State.mayFetch, hh, hi, he]
  simp only [State.fetch, hm, if_true, hp, State.takeWord, List.tail_cons]

end Sys2Proof.Machine

namespace Sys2Proof

open Machine

/-- Settles O1: the fields of the word are the command's own. -/
theorem encodedCommandDecodesToItself : Obligations.EncodedCommandDecodesToItself := fun i =>
  decode_eq_command_iff.mpr (fields_encode i)

/-- Settles O2: the command has the fields of the word, and the word is its fields. -/
theorem decodedWordEncodesBack : Obligations.DecodedWordEncodesBack := by
  intro w i h
  obtain ⟨hop, ha, hd⟩ := decode_eq_command_iff.mp h
  rw [encode, ← hop, ← ha, ← hd, fields_append]

/-- Settles O3: the two codes are those that the table leaves out. -/
theorem onlyReservedCodesAreInvalid : Obligations.OnlyReservedCodesAreInvalid :=
  ⟨decode_invalid_iff, fun _ _ _ hf h => step_of_invalid hf (decode_of_code000 h),
    fun _ _ _ hf h => step_of_invalid hf (decode_of_code111 h)⟩

/-- Settles O4: acceptance stages the command's code and operands, which are the word's fields. -/
theorem acceptanceStagesTheFields : Obligations.AcceptanceStagesTheFields := by
  intro w i s t hd h
  obtain ⟨hop, ha, hw⟩ := decode_eq_command_iff.mp hd
  obtain ⟨-, -, rfl⟩ := accept_eq_next h
  rw [State.setBank_bank]
  exact ⟨hop.symm, ha.symm, hw.symm⟩

/-- Settles O5, by decoding the eight words. -/
theorem writtenOutWordsDecode : Obligations.WrittenOutWordsDecode := by
  unfold Obligations.WrittenOutWordsDecode
  decide

/-- Settles O51: the step fetches the word, which decodes to the command. -/
theorem stepRunsTheOfferedCommand : Obligations.StepRunsTheOfferedCommand :=
  fun _ _ _ _ hh hi he hp hd => step_of_command (fetch_of_offered hh hi he hp) hd

end Sys2Proof
end

section
/-! The fields a command does not use (30_encoding.md R63). An overwriting of the staged registers `ADDR` and `WDATA` that no
byte of the path reads can be done before the run or after it: the run commutes with it. -/

namespace Sys2Proof.Machine

/-! ### Overwriting the staged registers -/

/-- The bank with `ADDR` rewritten by `fa` and `WDATA` by `fd`. -/
def Bank.restage (b : Bank) (fa : Addr → Addr) (fd : Byte → Byte) : Bank :=
  { b with addr := fa b.addr, wdata := fd b.wdata }

/-- The state with the staged registers of context `c` so rewritten. -/
def State.restage (c : Ctx) (fa : Addr → Addr) (fd : Byte → Byte) (s : State) : State :=
  s.setBank c ((s.bank c).restage fa fd)

/-- Where the byte that a micro-step sends comes from, if it sends one. -/
def Op.source : Op → Option ByteSrc
  | .x2 src => some src
  | .e1 | .e2 | .e3 | .e4 | .e5 | .l1 | .l2 | .l3 | .l4 | .l5 | .x3 | .x4 | .i1 | .csHigh | .csLow | .i3 | .i6 | .t6 => none

/-- The micro-step sends no byte that depends on what is rewritten (42_sram_device.md R121). -/
def Op.Blind (fa : Addr → Addr) (fd : Byte → Byte) (o : Op) : Prop :=
  ∀ src ∈ o.source, ∀ p b, src.value p (b.restage fa fd) = src.value p b

/-- A result with its state, if it has one, so rewritten. -/
def Result.restage (c : Ctx) (fa : Addr → Addr) (fd : Byte → Byte) (r : Result) : Result :=
  r.andThen fun t => .next (t.restage c fa fd)

section
variable {c : Ctx} {fa : Addr → Addr} {fd : Byte → Byte} {s : State}

@[simp] theorem Result.restage_next : Result.restage c fa fd (.next s) = .next (s.restage c fa fd) := rfl
@[simp] theorem Result.restage_fault (e : Fault) : Result.restage c fa fd (.fault e) = .fault e := rfl
@[simp] theorem Result.restage_refused (e : Refusal) : Result.restage c fa fd (.refused e) = .refused e := rfl

@[simp] theorem State.restage_nc : (s.restage c fa fd).nc = s.nc := State.setBank_nc ..
@[simp] theorem State.restage_ctx : (s.restage c fa fd).ctx = s.ctx := State.setBank_ctx ..
@[simp] theorem State.restage_halt : (s.restage c fa fd).halt = s.halt := State.setBank_halt ..
@[simp] theorem State.restage_xferDone : (s.restage c fa fd).xferDone = s.xferDone := State.setBank_xferDone ..
@[simp] theorem State.restage_xferPending : (s.restage c fa fd).xferPending = s.xferPending := State.setBank_xferPending ..
@[simp] theorem State.restage_txReady : (s.restage c fa fd).txReady = s.txReady := State.setBank_txReady ..
@[simp] theorem State.restage_env : (s.restage c fa fd).env = s.env := State.setBank_env ..
@[simp] theorem State.restage_cfg : (s.restage c fa fd).cfg = s.cfg := State.setBank_cfg ..
@[simp] theorem State.restage_bank : (s.restage c fa fd).bank c = (s.bank c).restage fa fd := State.setBank_bank ..
@[simp] theorem Bank.restage_ph (b : Bank) : (b.restage fa fd).ph = b.ph := rfl

/-! ### What a run is made of commutes with it -/

theorem State.writeCs_restage (v : Bool) : (s.restage c fa fd).writeCs v = (s.writeCs v).restage c fa fd := by
  cases c <;> cases hn : s.csN <;> cases v <;> simp [State.writeCs, State.restage, State.setBank, State.bank, hn]

theorem State.advance_restage (l : List Micro) : (s.restage c fa fd).advance c l = (s.advance c l).restage c fa fd := by
  cases l <;> cases c <;> rfl

theorem State.raise_restage (k : ErrorKind) : (s.restage c fa fd).raise k = (s.raise k).restage c fa fd := by
  cases k <;> cases c <;> rfl

theorem State.completeTransfer_restage :
    (s.restage c fa fd).completeTransfer = s.completeTransfer.restage c fa fd := by
  cases c <;> rfl

@[simp] theorem State.ordinary_restage (o : Op) : (s.restage c fa fd).ordinary o = s.ordinary o := by
  cases o <;> simp [State.ordinary]

/-- A micro-step reads the staged registers for the byte it sends, and for nothing else. -/
theorem effect_restage {o : Op} (ho : o.Blind fa fd) :
    effect c (s.restage c fa fd) o = (effect c s o).restage c fa fd := by
  cases o with
  | x2 src =>
    simp only [effect, State.restage_cfg, State.restage_bank, ho src rfl]
    cases c <;> rfl
  | e4 | l4 => simp only [effect, State.restage_nc]; split <;> cases c <;> rfl
  | i3 =>
    simp only [effect, State.restage_cfg]; split
    · exact State.writeCs_restage false
    · rfl
  | csHigh => exact State.writeCs_restage true
  | csLow => exact State.writeCs_restage false
  | i6 => simp only [effect, State.endInit, State.writeCs_restage]; cases c <;> rfl
  | _ => cases c <;> rfl

theorem otherWay_restage (o : Op) (rest : List Micro) :
    otherWay c rest (s.restage c fa fd) o = (otherWay c rest s o).restage c fa fd := by
  cases o <;> simp [otherWay, State.raise_restage, State.advance_restage]

theorem runOp_restage {o : Op} (ho : o.Blind fa fd) (rest : List Micro) :
    runOp c o rest (s.restage c fa fd) = (runOp c o rest s).restage c fa fd := by
  simp only [runOp, State.ordinary_restage, effect_restage ho, State.advance_restage, otherWay_restage]
  split <;> rfl

/-- The path of the running context `c`, with no other agent's turn to come, sends no byte that depends on what is rewritten. -/
structure State.Unread (c : Ctx) (fa : Addr → Addr) (fd : Byte → Byte) (s : State) : Prop where
  env : s.env = []
  ctx : s.ctx = c
  blind : ∀ m ∈ (s.bank c).ph, m.op.Blind fa fd

theorem afterUnderflow_subset : ∀ l : List Micro, afterUnderflow l ⊆ l
  | [] => List.Subset.refl _
  | m :: rest => by
    rw [afterUnderflow]; split
    · exact List.subset_cons_self m rest
    · exact List.Subset.refl _

/-- A micro-step leaves no more of the path than there was. -/
theorem runOp_unread {m : Micro} {rest : List Micro} {t : State} (h : s.Unread c fa fd) (hp : (s.bank c).ph = m :: rest)
    (hr : runOp c m.op rest s = .next t) : t.Unread c fa fd := by
  obtain ⟨he, hc, hb⟩ := h
  have hrest : ∀ x ∈ rest, x.op.Blind fa fd := fun x hx => hb x (hp ▸ List.mem_cons_of_mem m hx)
  obtain ⟨-, rfl⟩ | ⟨-, -, rfl⟩ | ⟨-, -, rfl⟩ | ⟨-, -, rfl⟩ := runOp_eq_next hr
  · exact ⟨by simp [he], by simp [hc], by simpa using hrest⟩
  · exact ⟨he, hc, by cases c <;> exact hb⟩
  · exact ⟨by simp [State.raise, he], by simp [State.raise, hc],
      by simpa using fun x hx => hrest x (afterUnderflow_subset rest hx)⟩
  · exact ⟨he, hc, hb⟩

/-- The turn of a context that has a path to run, with no other agent's turn to come. -/
theorem turn_of_path {m : Micro} {rest : List Micro} (he : s.env = []) (hh : s.halt = false)
    (hp : (s.bank s.ctx).ph = m :: rest) :
    turn s = if s.waiting && s.busWillComplete then .next s.completeTransfer else runOp s.ctx m.op rest s := by
  simp only [turn, he, hh, seqTurn, hp]
  rfl

theorem State.waiting_restage (hc : s.ctx = c) : (s.restage c fa fd).waiting = s.waiting := by
  subst hc; simp [State.waiting]

@[simp] theorem State.busWillComplete_restage : (s.restage c fa fd).busWillComplete = s.busWillComplete := by
  simp [State.busWillComplete]

theorem State.settled_restage (hc : s.ctx = c) : (s.restage c fa fd).settled c = s.settled c := by
  simp [State.settled, State.hung, State.waiting_restage hc]

theorem State.work_restage : (s.restage c fa fd).work = s.work := by
  cases c <;> rfl

/-- A turn inside an activation commutes with the rewriting, and what it leaves can be gone on from. -/
theorem turn_restage (h : s.Unread c fa fd) (hs : s.settled c = false) :
    turn (s.restage c fa fd) = (turn s).restage c fa fd ∧ ∀ t, turn s = .next t → t.Unread c fa fd := by
  have hu := h
  obtain ⟨he, rfl, hb⟩ := h
  simp only [State.settled, Bool.or_eq_false_iff, decide_eq_false_iff_not] at hs
  obtain ⟨⟨hh, hi⟩, -⟩ := hs
  obtain ⟨m, rest, hp⟩ := List.exists_cons_of_ne_nil hi
  have hblind : m.op.Blind fa fd := hb m (by simp [hp])
  rw [turn_of_path he hh hp, turn_of_path (m := m) (rest := rest) (by simp [he]) (by simp [hh]) (by simp [hp]),
    State.waiting_restage rfl, State.busWillComplete_restage, State.restage_ctx]
  split
  · refine ⟨by simp [State.completeTransfer_restage], fun t ht => ?_⟩
    cases ht
    exact ⟨by simp [he], by simp, by simpa using hb⟩
  · exact ⟨runOp_restage hblind rest, fun t ht => runOp_unread hu hp ht⟩

theorem drive_restage : ∀ (n : Nat) {s : State}, s.Unread c fa fd →
    drive n c (s.restage c fa fd) = (drive n c s).restage c fa fd
  | 0, _, _ => rfl
  | n + 1, s, h => by
    rw [drive, drive, State.settled_restage h.ctx]
    split
    · rfl
    · rename_i hs
      obtain ⟨hturn, hnext⟩ := turn_restage h (by simpa using hs)
      rw [hturn]
      cases ht : turn s with
      | next t => exact drive_restage n (hnext t ht)
      | fault e => rfl
      | refused e => rfl

/-- Two commands of one code whose operands differ in what the path does not read: their runs differ in the staged registers
alone. -/
theorem exec_restage {i j : Instr} (he : s.env = []) (hcode : j.code = i.code) (hpath : commandPath j = commandPath i)
    (ha : j.addr = fa i.addr) (hd : j.data = fd i.data) (hb : ∀ m ∈ commandPath i, m.op.Blind fa fd) :
    exec j s = Result.restage s.ctx fa fd (exec i s) := by
  have hacc : accept j (commandPath i) s = (accept i (commandPath i) s).restage s.ctx fa fd := by
    simp only [accept, hcode, ha, hd]
    split_ifs <;> simp only [Result.restage_fault, Result.restage_refused, Result.restage_next]
    cases s.ctx <;> rfl
  rw [exec_eq_runCommand, exec_eq_runCommand, runCommand, runCommand, hpath, hacc]
  cases hr : accept i (commandPath i) s with
  | next u =>
    obtain ⟨-, -, rfl⟩ := accept_eq_next hr
    simp only [Result.restage_next, Result.next_andThen, resume, State.work_restage, State.restage_ctx, State.setBank_ctx]
    exact drive_restage _ ⟨by simp [he], by simp, by simpa using hb⟩
  | fault e => rfl
  | refused e => rfl

/-- A view of the end state that does not show what is rewritten is then the same of both runs. -/
theorem exec_same_view {i j : Instr} {g : State → State} (he : s.env = []) (hcode : j.code = i.code)
    (hpath : commandPath j = commandPath i) (ha : j.addr = fa i.addr) (hd : j.data = fd i.data)
    (hb : ∀ m ∈ commandPath i, m.op.Blind fa fd) (hg : ∀ t : State, g (t.restage s.ctx fa fd) = g t) :
    (Result.state? (exec i s)).map g = (Result.state? (exec j s)).map g := by
  rw [exec_restage he hcode hpath ha hd hb]
  cases exec i s with
  | next t => exact congrArg some (hg t).symm
  | fault e => rfl
  | refused e => rfl

end

/-! ### What the paths read -/

/-- A path reads of the staged registers what the bytes it sends read. -/
theorem blind_of_sources {fa : Addr → Addr} {fd : Byte → Byte} {path : List Micro} {srcs : List ByteSrc}
    (hs : path.filterMap (fun m => m.op.source) = srcs)
    (hv : ∀ src ∈ srcs, ∀ p b, src.value p (b.restage fa fd) = src.value p b) : ∀ m ∈ path, m.op.Blind fa fd :=
  fun m hm src ho => hv src (hs ▸ List.mem_filterMap.mpr ⟨m, hm, ho⟩)

/-- ENTER sends nothing. -/
theorem enterPath_blind (fa : Addr → Addr) (fd : Byte → Byte) : ∀ m ∈ enterPath, m.op.Blind fa fd :=
  blind_of_sources (srcs := []) rfl nofun

/-- LEAVE sends nothing. -/
theorem leavePath_blind (fa : Addr → Addr) (fd : Byte → Byte) : ∀ m ∈ leavePath, m.op.Blind fa fd :=
  blind_of_sources (srcs := []) rfl nofun

/-- INIT sends two parameters (30_encoding.md R69). -/
theorem initPath_blind (fa : Addr → Addr) (fd : Byte → Byte) : ∀ m ∈ initPath, m.op.Blind fa fd :=
  blind_of_sources (srcs := [.initB0, .initB1]) rfl (by simp [ByteSrc.value])

/-- EXCHANGE sends `WDATA` (41_bus_transport.md R100). -/
theorem exchangePath_blind (fa : Addr → Addr) : ∀ m ∈ exchangePath, m.op.Blind fa id :=
  blind_of_sources (srcs := [.wdata]) rfl (by simp [ByteSrc.value, Bank.restage])

/-- READ sends parameters, both bytes of `ADDR` and the sentinel (30_encoding.md R67). -/
theorem readPath_blind (fd : Byte → Byte) : ∀ m ∈ readPath, m.op.Blind id fd :=
  blind_of_sources (srcs := [.opRead, .opExt, .addrHi, .addrLo, .sentinel]) rfl (by simp [ByteSrc.value, Bank.restage])

end Sys2Proof.Machine

namespace Sys2Proof

open Machine

/-- Settles O6: the two runs end in states of which one is the other with the staged registers rewritten, and the rewriting is
what the comparison forgets. -/
theorem unusedFieldsAreIgnored : Obligations.UnusedFieldsAreIgnored := by
  intro s a a' d d' hq
  have he := hq.env
  refine ⟨?_, ?_, fun _ => ⟨?_, ?_, ?_⟩⟩
  · exact exec_same_view (fa := fun _ => a') (fd := fun _ => d') he rfl rfl rfl rfl (enterPath_blind _ _)
      fun _ => by cases s.ctx <;> rfl
  · exact exec_same_view (fa := fun _ => a') (fd := fun _ => d') he rfl rfl rfl rfl (leavePath_blind _ _)
      fun _ => by cases s.ctx <;> rfl
  · exact exec_same_view (fa := fun _ => a') he rfl rfl rfl rfl (exchangePath_blind _) fun _ => by cases s.ctx <;> rfl
  · exact exec_same_view (fa := fun _ => a') (fd := fun _ => d') he rfl rfl rfl rfl (initPath_blind _ _)
      fun _ => by cases s.ctx <;> rfl
  · exact exec_same_view (fd := fun _ => d') he rfl rfl rfl rfl (readPath_blind _) fun _ => by cases s.ctx <;> rfl

end Sys2Proof
end

section
/-! The bytes on the bus (30_encoding.md R67 to R70): what a run has sent so far, unit by unit of a command's path, and the three
transactions as commands issued alone. -/

namespace Sys2Proof.Machine

/-! ### What has been sent -/

/-- From `s` to `t` the trace has grown, and the bytes that went out on the way are `vs`, in order. -/
def State.Sends (s t : State) (vs : List Byte) : Prop :=
  ∃ es, t.trace = s.trace ++ es ∧ es.filterMap Event.txByte = vs

theorem State.Sends.of_trace {s t : State} {es : List Event} {vs : List Byte} (ht : t.trace = s.trace ++ es)
    (hv : es.filterMap Event.txByte = vs) : s.Sends t vs := ⟨es, ht, hv⟩

/-- No event, no byte. -/
theorem State.Sends.of_same {s t : State} (ht : t.trace = s.trace) : s.Sends t [] := ⟨[], by simp [ht], rfl⟩

theorem State.Sends.trans {s t u : State} {vs ws : List Byte} (h : s.Sends t vs) (h' : t.Sends u ws) :
    s.Sends u (vs ++ ws) := by
  obtain ⟨es, ht, rfl⟩ := h
  obtain ⟨fs, hu, rfl⟩ := h'
  exact ⟨es ++ fs, by rw [hu, ht, List.append_assoc], List.filterMap_append⟩

/-- What sends nothing may follow. -/
theorem State.Sends.silent {s t u : State} {vs : List Byte} (h : s.Sends t vs) (h' : t.Sends u []) : s.Sends u vs := by
  simpa using h.trans h'

/-! ### The gate sends nothing, an exchange sends its byte -/

@[simp] theorem enterEvents_txBytes (n : Count) (i : Bool) : (enterEvents n i).filterMap Event.txByte = [] := by
  unfold enterEvents; split <;> rfl

@[simp] theorem leaveEvents_txBytes (n : Count) (i : Bool) : (leaveEvents n i).filterMap Event.txByte = [] := by
  unfold leaveEvents; split
  · rfl
  · split <;> rfl

@[simp] theorem exchangeEvents_txBytes (n : Count) (i : Bool) (b r : Byte) :
    (exchangeEvents n i b r).filterMap Event.txByte = [b] := by
  rw [exchangeEvents, List.filterMap_append, List.filterMap_append, enterEvents_txBytes, leaveEvents_txBytes]
  rfl

theorem State.entered_sends (s : State) (c : Ctx) : s.Sends (s.entered c) [] := .of_trace rfl (enterEvents_txBytes ..)

theorem State.left_sends (s : State) (c : Ctx) : s.Sends (s.left c) [] := .of_trace rfl (leaveEvents_txBytes ..)

theorem State.exchanged_sends (s : State) (c : Ctx) (v : Byte) : s.Sends (s.exchanged c v) [v] :=
  .of_trace rfl (exchangeEvents_txBytes ..)

theorem State.writeCs_sends (s : State) (v : Bool) : s.Sends (s.writeCs v) [] := .of_trace (s.writeCs_trace v) rfl

/-- A transaction's own LEAVE and its completion send nothing. -/
theorem State.left_finish_sends (s : State) (c : Ctx) : s.Sends ((s.left c).finish c) [] :=
  (s.left_sends c).trans (.of_trace (State.finish_trace _ c) rfl)

theorem State.endInit_sends (s : State) : s.Sends s.endInit [] := .of_trace s.endInit_trace rfl

theorem effect_t6_sends (c : Ctx) (s : State) : s.Sends (effect c s .t6) [] := .of_same (State.setBank_trace ..)

/-- Acceptance sends nothing. -/
theorem State.Sends.of_staged {s t : State} {i : Instr} {vs : List Byte} (h : (s.staged i).Sends t vs) : s.Sends t vs := by
  simpa [State.Sends] using h

/-- The exchanges of a frame send its bytes in order. -/
theorem State.framed_sends (c : Ctx) : ∀ (s : State) (vs : List Byte), s.Sends (s.framed c vs) vs
  | _, [] => .of_same rfl
  | s, v :: vs => (s.exchanged_sends c v).trans (State.framed_sends c _ vs)

/-- Select, then the frame: the bytes are the frame's. -/
theorem State.selected_sends (s : State) (c : Ctx) (vs : List Byte) : s.Sends (s.selected c vs) vs :=
  ((s.entered_sends c).silent (State.writeCs_sends _ false)).trans (State.framed_sends c _ vs)

/-- I0 to I3 send nothing. -/
theorem State.configured_sends (s : State) (c : Ctx) : s.Sends (s.configured c) [] := by
  have hc : s.Sends ((s.entered c).busConfig.writeCs true) [] :=
    ((s.entered_sends c).silent (.of_trace (State.busConfig_trace _) rfl)).silent (State.writeCs_sends _ true)
  unfold State.configured; dsimp only; split
  · exact hc.silent (State.writeCs_sends _ false)
  · exact hc

/-! ### The transactions, issued alone -/

/-- The frame of READ names the operand, high byte first (30_encoding.md R67, R70). -/
theorem State.readFrame_staged (s : State) (a : Addr) (d : Byte) : (s.staged (.read a d)).readFrame s.ctx =
    [s.cfg.opRead, s.cfg.opExt, addrHighByte a, addrLowByte a, sentinelByte] := by
  simp [State.readFrame, Instr.addr]

/-- The frame of WRITE names both operands (30_encoding.md R68, R70). -/
theorem State.writeFrame_staged (s : State) (a : Addr) (d : Byte) : (s.staged (.write a d)).writeFrame s.ctx =
    [s.cfg.opWrite, s.cfg.opExt, addrHighByte a, addrLowByte a, d] := by
  simp [State.writeFrame, Instr.addr, Instr.data]

section
variable {s : State} {a : Addr} {d : Byte} (hq : s.Quiet) (hb : s.BusUp) (hn : s.nc.toNat ≤ 253)
include hq hb hn

/-- READ issued alone: T0 to T8, run to their end (42_sram_device.md R122). -/
theorem exec_read_alone : exec (.read a d) s =
    let u := s.staged (.read a d)
    .next ((((effect s.ctx (u.selected s.ctx (u.readFrame s.ctx)) .t6).writeCs true).left s.ctx).finish s.ctx) := by
  obtain ⟨n, h⟩ := runCommand_quiet hq (.read a d) readPath 83 (by decide)
  exact h.trans (drive_readPath (hq.alone _) (by simpa using hn) (by simpa using hb.fair) (by simpa using hb.ready)
    (by simpa using hb.idle))

/-- WRITE issued alone: W0 to W8, run to their end (42_sram_device.md R126). -/
theorem exec_write_alone : exec (.write a d) s =
    let u := s.staged (.write a d)
    .next ((((u.selected s.ctx (u.writeFrame s.ctx)).writeCs true).left s.ctx).finish s.ctx) := by
  obtain ⟨n, h⟩ := runCommand_quiet hq (.write a d) writePath 82 (by decide)
  exact h.trans (drive_writePath (hq.alone _) (by simpa using hn) (by simpa using hb.fair) (by simpa using hb.ready)
    (by simpa using hb.idle))

/-- INIT issued alone: I0 to I7, run to their end (42_sram_device.md R116). -/
theorem exec_init_alone : exec (.init a d) s =
    let u := s.staged (.init a d)
    .next (((((u.configured s.ctx).framed s.ctx [s.cfg.initB0, s.cfg.initB1]).endInit).left s.ctx).finish s.ctx) := by
  obtain ⟨n, h⟩ := runCommand_quiet hq (.init a d) initPath 42 (by decide)
  have hrun := drive_initPath (n := n) (hq.alone (.init a d)) (by simpa using hn) (by simpa using hb.fair)
    (by simpa using hb.idle)
  rw [State.staged_cfg] at hrun
  exact h.trans hrun

/-! ### Their frames on the bus -/

theorem exec_read_sends : ∃ t, exec (.read a d) s = .next t ∧
    s.Sends t [s.cfg.opRead, s.cfg.opExt, addrHighByte a, addrLowByte a, sentinelByte] := by
  refine ⟨_, exec_read_alone hq hb hn, ?_⟩
  rw [← s.readFrame_staged a d]
  have hframe := (s.staged (.read a d)).selected_sends s.ctx ((s.staged (.read a d)).readFrame s.ctx)
  exact (((hframe.silent (effect_t6_sends s.ctx _)).silent (State.writeCs_sends _ true)).silent
    (State.left_finish_sends _ s.ctx)).of_staged

theorem exec_write_sends : ∃ t, exec (.write a d) s = .next t ∧
    s.Sends t [s.cfg.opWrite, s.cfg.opExt, addrHighByte a, addrLowByte a, d] := by
  refine ⟨_, exec_write_alone hq hb hn, ?_⟩
  rw [← s.writeFrame_staged a d]
  have hframe := (s.staged (.write a d)).selected_sends s.ctx ((s.staged (.write a d)).writeFrame s.ctx)
  exact ((hframe.silent (State.writeCs_sends _ true)).silent (State.left_finish_sends _ s.ctx)).of_staged

theorem exec_init_sends : ∃ t, exec (.init a d) s = .next t ∧ s.Sends t [s.cfg.initB0, s.cfg.initB1] := by
  refine ⟨_, exec_init_alone hq hb hn, ?_⟩
  have hframe := ((s.staged (.init a d)).configured_sends s.ctx).trans
    (State.framed_sends s.ctx _ [s.cfg.initB0, s.cfg.initB1])
  exact ((hframe.silent (State.endInit_sends _)).silent (State.left_finish_sends _ s.ctx)).of_staged

end

end Sys2Proof.Machine

namespace Sys2Proof

open Machine

/-- Settles O44: of all the units of a transaction's path only the exchanges send a byte, and theirs are the frame. -/
theorem framesOnTheBus : Obligations.FramesOnTheBus := by
  intro s a v hq hb _ hn
  obtain ⟨tr, hr, er, htr, hvr⟩ := exec_read_sends (a := a) (d := v) hq hb hn
  obtain ⟨tw, hw, ew, htw, hvw⟩ := exec_write_sends (a := a) (d := v) hq hb hn
  obtain ⟨ti, hi, ei, hti, hvi⟩ := exec_init_sends (a := a) (d := v) hq hb hn
  exact ⟨⟨tr, er, hr, htr, hvr⟩, ⟨tw, ew, hw, htw, hvw⟩, ⟨ti, ei, hi, hti, hvi⟩⟩

end Sys2Proof
end

section
/-! The tick inside a region and the steps that run with interrupts off (40_critical_section.md R84, R92, R95): `NC` and
`TICK_EN` move together along the gate's micro-steps, and no handler falls between E3 and E4. -/

namespace Sys2Proof.Machine

/-! ### The environment's list -/

@[simp] theorem State.raise_env (s : State) (k : ErrorKind) : (s.raise k).env = s.env := by cases k <;> rfl
@[simp] theorem State.takeWord_env (s : State) : s.takeWord.env = s.env := State.setBank_env ..

theorem runOp_env {c : Ctx} {o : Op} {rest : List Micro} {s t : State} (h : runOp c o rest s = .next t) :
    t.env = s.env := by
  obtain ⟨-, rfl⟩ | ⟨-, -, rfl⟩ | ⟨-, -, rfl⟩ | ⟨-, -, rfl⟩ := runOp_eq_next h <;> simp

theorem accept_env {i : Instr} {path : List Micro} {s t : State} (h : accept i path s = .next t) : t.env = s.env := by
  obtain ⟨-, -, rfl⟩ := accept_eq_next h
  simp

/-- No turn writes the turns that are to come (10_state.md R29). -/
theorem Did.env_eq {who : Option Move} {s t : State} (h : Did who s t) : t.env = s.env := by
  cases h with
  | op m rest t by_ ph halt run => exact runOp_env run
  | accepted i w t by_ idle offer word run => exact (accept_env run).trans s.takeWord_env
  | nothing | returned | entered | completed | configured | ieWritten | tickWritten | wasReset => rfl

/-- A turn uses up the head of the list. -/
theorem turn_env {s t : State} (h : turn s = .next t) : t.env = s.env.tail := (turn_did h).env_eq

/-! ### The micro-step after E3 -/

/-- A path ends with the restore of `IE`: E5 or L5. -/
theorem commandPath_getLast (i : Instr) :
    (commandPath i).getLast?.map Micro.op = some .e5 ∨ (commandPath i).getLast?.map Micro.op = some .l5 := by
  cases i with
  | enter => exact .inl rfl
  | leave | exchange | init | read | write => exact .inr rfl

/-- E4 stands right after E3 (40_critical_section.md R80). -/
theorem Bank.e4_after_e3 {b : Bank} {m : Micro} {rest : List Micro} (h : b.onPath) (hp : b.ph = m :: rest)
    (hm : m.op = .e3) : rest.head?.map Micro.op = some .e4 := by
  cases rest with
  | nil =>
    obtain hnil | ⟨i, -, front, hf⟩ := h
    · simp [hp] at hnil
    · have hlast : (commandPath i).getLast? = some m := by simp [← hf, hp]
      have := commandPath_getLast i
      simp [hlast, hm] at this
  | cons m₁ rest =>
    obtain ⟨⟨-, -, -, he4, -⟩, -⟩ := List.isChain_cons_cons.mp (hp ▸ Bank.onPath_chain h)
    simp [he4 hm]

/-! ### `NC` and `TICK_EN` together -/

/-- The tick is off while `NC >= 1`, or the micro-step `o`, which is next if there is one, is the outermost ENTER's E4. -/
def State.TickOffAt (s : State) (o : Option Op) : Prop :=
  s.nc = 0 ∨ s.tickEn = false ∨ (s.nc = 1 ∧ o = some .e4)

theorem State.TickOffAt.of_same {s t : State} {o o' : Option Op} (h : s.TickOffAt o) (hn : t.nc = s.nc)
    (hk : t.tickEn = s.tickEn) (ho : o = some .e4 → o' = some .e4) : t.TickOffAt o' := by
  rw [State.TickOffAt, hn, hk]
  exact h.imp_right (Or.imp_right (And.imp_right ho))

/-- What a micro-step on its ordinary way leaves: only E3 asks anything of the one after it. -/
theorem effect_tickOffAt {c : Ctx} {s : State} {o : Op} {o' : Option Op} (h : s.TickOffAt (some o))
    (ho : s.ordinary o = true) (he : o = .e3 → o' = some .e4) : (effect c s o).TickOffAt o' := by
  by_cases hgate : o = .e3 ∨ o = .e4 ∨ o = .l3 ∨ o = .l4
  · rw [State.TickOffAt, effect_nc, effect_tickEn]
    rcases hgate with rfl | rfl | rfl | rfl
    case inl =>
      obtain h | h | ⟨-, h⟩ := h
      · simp [h, he rfl]
      · simp [h]
      · simp at h
    case inr.inl =>
      obtain h | h | ⟨h, -⟩ := h <;> simp [h]
    case inr.inr.inl =>
      obtain h | h | ⟨-, h⟩ := h
      · simp [State.ordinary, h] at ho
      · simp [h]
      · simp at h
    case inr.inr.inr =>
      obtain h | h | ⟨-, h⟩ := h
      · simp [h]
      · by_cases hn : s.nc = 0#8 <;> simp [h, hn]
      · simp at h
  · obtain ⟨h3, h4, h3', h4'⟩ : o ≠ .e3 ∧ o ≠ .e4 ∧ o ≠ .l3 ∧ o ≠ .l4 := by simpa using hgate
    exact h.of_same (by simp [effect_nc, h3, h3']) (by simp [effect_tickEn, h4, h4']) (by simp [h4])

theorem runOp_tickOff {m : Micro} {rest : List Micro} {s t : State} (hi : s.Inv) (h : s.TickOff)
    (hp : (s.bank s.ctx).ph = m :: rest) (hr : runOp s.ctx m.op rest s = .next t) : t.TickOff := by
  have hm : s.TickOffAt (some m.op) := Bank.next_of_cons hp ▸ h
  obtain ⟨ho, rfl⟩ | ⟨he, -, rfl⟩ | ⟨-, hn, rfl⟩ | ⟨-, -, rfl⟩ := runOp_eq_next hr
  case inl =>
    have hu := effect_tickOffAt (c := s.ctx) hm ho (Bank.e4_after_e3 hi.running.path hp)
    simpa [State.TickOff, State.TickOffAt, Bank.next] using hu
  case inr.inl => exact hm.of_same rfl rfl (by simp [he])
  case inr.inr.inl => exact .inl (by simpa using hn)
  case inr.inr.inr => exact h

/-- An idle context is before no E4, so whatever leaves `NC` and `TICK_EN` keeps the tick off. -/
theorem State.TickOff.of_idle {s t : State} (h : s.TickOff) (hidle : (s.bank s.ctx).ph = []) (hn : t.nc = s.nc)
    (hk : t.tickEn = s.tickEn) : t.TickOff :=
  State.TickOffAt.of_same h hn hk (by simp [Bank.next_of_idle hidle])

/-- `main` with `IE = 1` is not before E4 either. -/
theorem enterHandler_tickOff {s : State} (hi : s.Inv) (h : s.TickOff) (ws : List CmdWord) (hie : s.ie = true) :
    (s.enterHandler ws).TickOff :=
  State.TickOffAt.of_same h rfl rfl fun ho => by simpa [hie] using hi.masked _ ho rfl

/-- Whatever a turn can do, but the scheduler's own write, keeps the tick off. -/
theorem Did.tickOff {who : Option Move} {s t : State} (hd : Did who s t) (hi : s.Inv) (h : s.TickOff)
    (hw : ∀ v, who ≠ some (.tickWrite v)) : t.TickOff := by
  cases hd with
  | op m rest t by_ ph halt run => exact runOp_tickOff hi h ph run
  | accepted i w t by_ idle offer word run =>
    obtain ⟨-, -, rfl⟩ := accept_eq_next run
    exact h.of_idle idle (by simp [State.takeWord]) (by simp [State.takeWord])
  | returned by_ ctx halt idle port => exact h.of_idle (by simpa [State.bank, ctx] using idle) rfl rfl
  | entered tick cmds by_ may =>
    simp only [State.mayInterrupt, Bool.and_eq_true, decide_eq_true_eq] at may
    obtain ⟨⟨⟨-, hie⟩, -⟩, -⟩ := may
    exact enterHandler_tickOff hi h cmds hie
  | tickWritten v by_ => exact absurd by_ (hw v)
  | wasReset => exact .inl rfl
  | nothing | completed | configured | ieWritten => exact h

/-- The machine's invariant, the tick off inside regions, and no scheduler's write to come: what O12 keeps. -/
structure State.TickGuarded (s : State) : Prop where
  inv : s.Inv
  tickOff : s.TickOff
  unwritten : ∀ v, Move.tickWrite v ∉ s.env

theorem turn_tickGuarded {s t : State} (h : s.TickGuarded) (ht : turn s = .next t) : t.TickGuarded where
  inv := turn_inv h.inv ht
  tickOff :=
    (turn_did ht).tickOff (h.inv.with_unread s.halt s.tickEn s.busReady s.trace s.env.tail) h.tickOff
      fun v hv => h.unwritten v (List.mem_of_mem_head? hv)
  unwritten v hv := h.unwritten v (List.mem_of_mem_tail (turn_env ht ▸ hv))

/-! ### Interrupts that find `IE = 0` -/

/-- An interrupt's turn passes with no effect while interrupts are off (60_exceptions.md R147). -/
theorem turn_intr_of_masked {s : State} {tick : Bool} {cmds : List CmdWord} {rest : List Move} (hie : s.ie = false)
    (he : s.env = .intr tick cmds :: rest) : turn s = .next { s with env := rest } := by
  simp [turn, he, agentTurn, State.mayInterrupt, hie]

end Sys2Proof.Machine

namespace Sys2Proof

open Machine

/-- Settles O12: kept by every turn together with the machine's invariant, which keeps handlers out between E3 and E4. -/
theorem tickStaysOffInsideRegions : Obligations.TickStaysOffInsideRegions := by
  intro s t hi hoff henv h
  have ht : t.TickGuarded := step_keeps (fun _ _ => turn_tickGuarded) ⟨hi, hoff, henv⟩ h
  exact ⟨ht.tickOff, ht.unwritten⟩

/-- Settles O23: the invariant has interrupts off at a masked micro-step. -/
theorem gateBodiesAreNotInterrupted : Obligations.GateBodiesAreNotInterrupted := by
  intro s o tick cmds rest hi hc hn hm he
  have hie : s.ie = false := hi.masked o (by rw [hc]; exact hn) hm
  exact turn_intr_of_masked hie he

end Sys2Proof
end

section
/-! ENTER and LEAVE issued alone (40_critical_section.md R85, R89), and properly nested sequences of them (R90). -/

namespace Sys2Proof.Machine

/-! ### The gate's commands, issued alone -/

/-- A context that has finished is at rest, with nobody else at work. -/
theorem State.Alone.finish_quiet {s : State} {c : Ctx} (h : s.Alone c) (hc : s.cfg.opRead ≠ s.cfg.opWrite) :
    (s.finish c).Quiet :=
  ⟨by simp [h.env], by simp [h.halt], by simp [h.ctx], by simpa using hc⟩

section
variable {s : State} {a : Addr} {d : Byte} (hq : s.Quiet)
include hq

/-- A command issued alone ends as its path does, if `m` turns bring the path to its end. -/
theorem exec_of_drive {i : Instr} {path : List Micro} {t : State} (hp : commandPath i = path) (m : Nat)
    (hm : m ≤ 2 * path.length)
    (h : ∀ n, drive (n + m) s.ctx ((s.staged i).setPh s.ctx (path ++ [])) = .next t) : exec i s = .next t := by
  obtain ⟨n, hn⟩ := runCommand_quiet hq i path m hm
  rw [exec_eq_runCommand, hp, hn, ← h n, List.append_nil]

/-- ENTER below 255: E1 to E5, run to their end (40_critical_section.md R80). -/
theorem exec_enter_alone (hn : s.nc ≠ 255) :
    exec (.enter a d) s = .next (((s.staged (.enter a d)).entered s.ctx).finish s.ctx) :=
  exec_of_drive hq (path := enterPath) rfl 5 (by decide) fun _ =>
    (drive_enter (hq.alone _) (by simpa using hn)).trans (drive_finish ..)

/-- ENTER at 255: E1, E2 and the failing E3 (40_critical_section.md R83). -/
theorem exec_enter_overflow (hn : s.nc = 255) :
    exec (.enter a d) s = .next ((s.staged (.enter a d)).overflowed s.ctx (enterPath.drop 2)) :=
  exec_of_drive hq (path := enterPath) rfl 3 (by decide) fun _ => drive_overflow (hq.alone _) (by simpa using hn)

/-- LEAVE above 0: L1 to L5, run to their end (40_critical_section.md R86). -/
theorem exec_leave_alone (hn : s.nc ≠ 0) :
    exec (.leave a d) s = .next (((s.staged (.leave a d)).left s.ctx).finish s.ctx) :=
  exec_of_drive hq (path := leavePath) rfl 5 (by decide) fun _ =>
    (drive_leave (hq.alone _) (by simpa using hn)).trans (drive_finish ..)

/-- LEAVE at 0: L1, L2, the failing L3 and L5 (40_critical_section.md R88). -/
theorem exec_leave_underflow (hn : s.nc = 0) :
    exec (.leave a d) s = .next (((s.staged (.leave a d)).underflowed s.ctx).finish s.ctx) :=
  exec_of_drive hq (path := leavePath) rfl 4 (by decide) fun _ =>
    (drive_underflow (hq.alone _) (by simpa using hn)).trans (drive_finish ..)

end

/-- The events of a LEAVE and its completion, row by row (40_critical_section.md R89). -/
theorem leaveEvents_append (tr : List Event) (n : Count) (i : Bool) (e : Event) : tr ++ leaveEvents n i ++ [e] =
    tr ++ [.ie false] ++
      (if n = 0 then [.err .underflow] else if n = 1 then [.nc 0, .tick true] else [.nc (n - 1)]) ++ [.ie i, e] := by
  by_cases h0 : n = 0
  · simp [leaveEvents, h0]
  · by_cases h1 : n = 1
    · simp [leaveEvents, h1]
    · rw [leaveEvents, if_neg h0, if_neg h0, if_neg h1, if_neg h1]; simp

theorem leaveEvents_zero {n : Count} (hn : n = 0) (i : Bool) : leaveEvents n i = [.ie false, .err .underflow, .ie i] := by
  rw [leaveEvents, if_pos hn]; rfl

/-! ### What a sequence of commands shows of the tick -/

/-- From `s` to `t` the trace has grown, and the values written to the tick switch on the way are `vs`, in order. -/
def State.Ticks (s t : State) (vs : List Bool) : Prop :=
  ∃ es, t.trace = s.trace ++ es ∧ es.filterMap Event.tickValue = vs

theorem State.Ticks.trans {s t u : State} {vs ws : List Bool} (h : s.Ticks t vs) (h' : t.Ticks u ws) :
    s.Ticks u (vs ++ ws) := by
  obtain ⟨es, ht, rfl⟩ := h
  obtain ⟨fs, hu, rfl⟩ := h'
  exact ⟨es ++ fs, by rw [hu, ht, List.append_assoc], List.filterMap_append⟩

theorem enterEvents_tickValues (n : Count) (i : Bool) :
    (enterEvents n i).filterMap Event.tickValue = if n = 0 then [false] else [] := by
  unfold enterEvents; split <;> rfl

theorem leaveEvents_tickValues {n : Count} (hn : n ≠ 0) (i : Bool) :
    (leaveEvents n i).filterMap Event.tickValue = if n = 1 then [true] else [] := by
  rw [leaveEvents, if_neg hn]
  split <;> rfl

/-- A run of commands issued alone leads from `s` to `t`, which is at rest again with `IE` as before, moves `NC` to `n` and the
tick switch to `tick`, and writes to the switch the values `vs`, in order. -/
structure State.Gated (s t : State) (n : Count) (tick : Bool) (vs : List Bool) : Prop where
  quiet : t.Quiet
  nc : t.nc = n
  ie : t.ie = s.ie
  tickEn : t.tickEn = tick
  ticks : s.Ticks t vs

theorem State.Gated.trans {s t u : State} {n n' : Count} {tick tick' : Bool} {vs ws : List Bool} (h : s.Gated t n tick vs)
    (h' : t.Gated u n' tick' ws) : s.Gated u n' tick' (vs ++ ws) :=
  ⟨h'.quiet, h'.nc, h'.ie.trans h.ie, h'.tickEn, h.ticks.trans h'.ticks⟩

/-- ENTER below 255: only the outermost writes the switch (40_critical_section.md R84, R85). -/
theorem exec_enter_gated {s : State} (hq : s.Quiet) (hn : s.nc ≠ 255) (a : Addr) (d : Byte) :
    ∃ t, exec (.enter a d) s = .next t ∧
      s.Gated t (s.nc + 1) (if s.nc = 0 then false else s.tickEn) (if s.nc = 0 then [false] else []) := by
  refine ⟨_, exec_enter_alone hq hn, (hq.alone _).entered.finish_quiet (by simpa using hq.cfg), by simp, by simp, by simp,
    enterEvents s.nc s.ie ++ [.ret s.ctx none], ?_, ?_⟩
  · simp [Bank.result, Instr.code]
  · rw [List.filterMap_append, enterEvents_tickValues]; simp [Event.tickValue]

/-- LEAVE above 0: only the outermost writes the switch (40_critical_section.md R89). -/
theorem exec_leave_gated {s : State} (hq : s.Quiet) (hn : s.nc ≠ 0) (a : Addr) (d : Byte) :
    ∃ t, exec (.leave a d) s = .next t ∧
      s.Gated t (s.nc - 1) (if s.nc = 1 then true else s.tickEn) (if s.nc = 1 then [true] else []) := by
  refine ⟨_, exec_leave_alone hq hn, (hq.alone _).left.finish_quiet (by simpa using hq.cfg), by simp, by simp, by simp,
    leaveEvents s.nc s.ie ++ [.ret s.ctx none], ?_, ?_⟩
  · simp [Bank.result, Instr.code]
  · rw [List.filterMap_append, leaveEvents_tickValues hn]; simp [Event.tickValue]

/-! ### Nests -/

theorem runAll_append (is js : List Instr) (s : State) : runAll (is ++ js) s = (runAll is s).andThen (runAll js) := by
  induction is generalizing s with
  | nil => rfl
  | cons i is ih =>
    simp only [List.cons_append, runAll]
    cases exec i s with
    | next t => exact ih t
    | fault e => rfl
    | refused e => rfl

theorem runAll_cons_of_exec {i : Instr} {is : List Instr} {s t : State} (h : exec i s = .next t) :
    runAll (i :: is) s = runAll is t := by
  rw [runAll, h, Result.next_andThen]

/-- A pair of an ENTER and a LEAVE runs as its parts do. -/
theorem runAll_pair {inner rest : Nest} {s s₁ s₂ s₃ : State} (hin : exec (.enter 0 0) s = .next s₁)
    (hinner : runAll inner.commands s₁ = .next s₂) (hout : exec (.leave 0 0) s₂ = .next s₃) :
    runAll (Nest.pair inner rest).commands s = runAll rest.commands s₃ := by
  rw [Nest.commands, runAll_cons_of_exec hin, runAll_append, hinner, Result.next_andThen, runAll_cons_of_exec hout]

/-- The values that a nest begun at `NC = n` writes to the switch: one pair for each outermost pair, if the nest is not itself
inside a region (40_critical_section.md R90). -/
def Nest.tickValues (nest : Nest) (n : Count) : List Bool :=
  if n = 0 then (List.replicate nest.outermost [false, true]).flatten else []

/-- The switch after a nest begun at `NC = n`, which found it at `tick`. -/
def Nest.tickAfter (nest : Nest) (n : Count) (tick : Bool) : Bool :=
  if n = 0 ∧ nest.outermost ≠ 0 then true else tick

section
variable (inner rest nest : Nest) {n : Count} (tick : Bool)

theorem Nest.tickValues_inside (h : n ≠ 0) : nest.tickValues n = [] := if_neg h

theorem Nest.tickAfter_inside (h : n ≠ 0) : nest.tickAfter n tick = tick := if_neg fun hc => h hc.1

theorem Nest.tickValues_pair :
    (Nest.pair inner rest).tickValues n = (if n = 0 then [false, true] else []) ++ rest.tickValues n := by
  unfold Nest.tickValues; split_ifs <;> rfl

theorem Nest.tickAfter_pair :
    (Nest.pair inner rest).tickAfter n tick = rest.tickAfter n (if n = 0 then true else tick) := by
  by_cases h : n = 0
  · simp [Nest.tickAfter, Nest.outermost, h]
  · rw [Nest.tickAfter_inside _ _ h, Nest.tickAfter_inside _ _ h, if_neg h]

end

/-- A nest that stays within 255, at whatever depth it begins, comes back to that depth. -/
theorem runAll_nest (nest : Nest) : ∀ s : State, s.Quiet → s.nc.toNat + nest.depth ≤ 255 →
    ∃ t, runAll nest.commands s = .next t ∧ s.Gated t s.nc (nest.tickAfter s.nc s.tickEn) (nest.tickValues s.nc) := by
  induction nest with
  | nothing =>
    exact fun s hq _ => ⟨s, rfl, hq, rfl, rfl, by simp [Nest.tickAfter, Nest.outermost], [], by simp,
      by simp [Nest.tickValues, Nest.outermost]⟩
  | pair inner rest ihinner ihrest =>
    intro s hq hd
    rw [Nest.depth] at hd
    have hlt : s.nc.toNat < 255 := by omega
    have h255 : s.nc ≠ 255 := fun h => by simp [h] at hlt
    have hsucc : (s.nc + 1).toNat = s.nc.toNat + 1 := by bv_omega
    have hpos : s.nc + 1 ≠ 0 := by bv_omega
    have hone : s.nc + 1 = 1 ↔ s.nc = 0 := by constructor <;> intro h <;> bv_omega
    obtain ⟨s₁, hin, g₁⟩ := exec_enter_gated hq h255 0 0
    obtain ⟨s₂, hinner, g₂⟩ := ihinner s₁ g₁.quiet (by rw [g₁.nc, hsucc]; omega)
    obtain ⟨s₃, hout, g₃⟩ := exec_leave_gated g₂.quiet (by rw [g₂.nc, g₁.nc]; exact hpos) 0 0
    have hback : s₃.nc = s.nc := by rw [g₃.nc, g₂.nc, g₁.nc]; bv_omega
    obtain ⟨t, hrest, g₄⟩ := ihrest s₃ g₃.quiet (by rw [hback]; omega)
    refine ⟨t, (runAll_pair hin hinner hout).trans hrest, ?_⟩
    have g := ((g₁.trans g₂).trans g₃).trans g₄
    rw [hback, g₃.tickEn, g₂.nc, g₂.tickEn, g₁.nc, g₁.tickEn, inner.tickAfter_inside _ hpos, inner.tickValues_inside hpos,
      List.append_nil] at g
    simp only [hone] at g
    rw [Nest.tickAfter_pair, Nest.tickValues_pair]
    split_ifs at g ⊢ <;> exact g

end Sys2Proof.Machine

namespace Sys2Proof

open Machine

/-- Settles O7: the state after acceptance with what E1 to E5 leave, or with what the failing E3 leaves. -/
theorem enterAtEveryCounterValue : Obligations.EnterAtEveryCounterValue := by
  refine fun s a d hq => ⟨fun hn => ?_, fun hn => ?_⟩
  · rw [exec_enter_alone hq hn, State.staged]
    generalize s.ctx = c
    cases c <;> rfl
  · rw [exec_enter_overflow hq hn, State.staged]
    generalize s.ctx = c
    cases c <;> rfl

/-- Settles O8: the state after acceptance with what L1 to L5 leave, or with what the failing L3 and L5 leave. -/
theorem leaveAtEveryCounterValue : Obligations.LeaveAtEveryCounterValue := by
  intro s a d hq
  rw [← leaveEvents_append]
  by_cases hn : s.nc = 0
  · have hnc : (if s.nc = 0 then 0 else s.nc - 1) = s.nc := by rw [if_pos hn, hn]
    have htick : (if s.nc = 1 then true else s.tickEn) = s.tickEn := by simp [hn]
    rw [exec_leave_underflow hq hn, hnc, htick, leaveEvents_zero hn, State.staged]
    generalize s.ctx = c
    cases c <;> rfl
  · rw [exec_leave_alone hq hn, if_neg hn, State.staged]
    generalize s.ctx = c
    cases c <;> rfl

/-- Settles O10: from `NC = 0` the nest's depth is the greatest value of the counter. -/
theorem nestedPairsReturnToZero : Obligations.NestedPairsReturnToZero := by
  intro n s hq h0 hd
  obtain ⟨t, hrun, ⟨-, hnc, hie, htick, es, htrace, hes⟩⟩ := runAll_nest n s hq (by simpa [h0] using hd)
  refine ⟨t, es, hrun, hnc.trans h0, hie, htrace, ?_, ?_⟩
  · simpa [Nest.tickValues, h0] using hes
  · simpa [Nest.tickAfter, h0] using htick

end Sys2Proof
end

section
/-! The bus transport (41_bus_transport.md R100 to R111): the turns at X2 and X3, the `bus` agent's completion, and EXCHANGE
issued alone on a bus that completes and on one that does not. -/

namespace Sys2Proof.Machine

/-! ### The turns at X2 and X3 -/

/-- A handler interrupts mainline code only (60_exceptions.md R153). -/
theorem ctx_of_mayInterrupt {s : State} {tick : Bool} {cmds : List CmdWord} (h : s.mayInterrupt tick cmds = true) :
    s.ctx = .main := by
  simp only [State.mayInterrupt, Bool.and_eq_true, decide_eq_true_eq] at h
  obtain ⟨⟨⟨⟨-, hc⟩, -⟩, -⟩, -⟩ := h
  exact hc

/-- Of the turns that change the phase of a context at X3, one that is no reset is its own micro-step
(41_bus_transport.md R103). -/
theorem Did.of_wait_over {who : Option Move} {s t : State} (hd : Did who s t) (hx : (s.bank s.ctx).next = some .x3)
    (hp : (t.bank s.ctx).ph ≠ (s.bank s.ctx).ph) : s.xferDone = true ∨ who = some .reset := by
  cases hd with
  | op m rest t by_ ph halt run =>
    have hm : m.op = .x3 := by simpa [Bank.next, ph] using hx
    rw [hm] at run
    obtain ⟨hdone, -⟩ | ⟨h, -⟩ | ⟨h, -⟩ | ⟨-, -, rfl⟩ := runOp_eq_next run
    · exact .inl hdone
    · exact nomatch h
    · exact nomatch h
    · exact absurd rfl hp
  | accepted i w t by_ idle offer word run => simp [Bank.next, idle] at hx
  | entered tick cmds by_ may =>
    rw [ctx_of_mayInterrupt may] at hp
    exact absurd rfl hp
  | wasReset by_ => exact .inr by_
  | nothing => exact absurd rfl hp
  | returned | completed | configured | ieWritten | tickWritten => simp at hp

theorem seqTurn_of_path {m : Micro} {rest : List Micro} {s : State} (hp : (s.bank s.ctx).ph = m :: rest) :
    seqTurn s = runOp s.ctx m.op rest s := by
  simp only [seqTurn, hp]

/-- The turn that the environment's list gives to the running context. -/
theorem turn_of_seq {s : State} {env : List Move} (he : s.env = .seq :: env) (hh : s.halt = false) :
    turn s = seqTurn { s with env := env } := by
  simp [turn, he, agentTurn, hh]

/-- A `TXD` write over a transfer in flight (41_bus_transport.md R107). -/
theorem runOp_x2_of_pending {s : State} (h : s.xferPending = true) (c : Ctx) (b : ByteSrc) (rest : List Micro) :
    runOp c (.x2 b) rest s = .fault .transferInFlight :=
  if_neg (by simp [State.ordinary, h])

/-! ### The `bus` agent -/

theorem turn_of_bus {s : State} {env : List Move} (he : s.env = .bus :: env) :
    turn s = .next (if s.xferPending then State.completeTransfer { s with env := env } else { s with env := env }) := by
  rw [turn, he]
  rfl

/-! ### A hang -/

/-- A context held at X3 by a bus that will not complete (41_bus_transport.md R103). -/
structure State.Held (s : State) (c : Ctx) : Prop where
  alone : s.Alone c
  atX3 : (s.bank c).next = some .x3
  notDone : s.xferDone = false
  noBus : s.busWillComplete = false

theorem State.Held.settled {s : State} {c : Ctx} (h : s.Held c) : s.settled c = true := by
  obtain ⟨⟨he, -, rfl⟩, hx, hd, hb⟩ := h
  have hw : s.waiting = true := by rw [State.waiting, hd]; exact decide_eq_true hx
  simp [State.settled, State.hung, he, hw, hb]

/-- Every step of a held context leaves the state as it is. -/
theorem State.Held.step {s : State} {c : Ctx} (h : s.Held c) : step s = .next s := by
  have hset := h.settled
  obtain ⟨⟨he, hh, rfl⟩, hx, hd, hb⟩ := h
  have hp : (s.bank s.ctx).ph ≠ [] := fun hp => by simp [Bank.next, hp] at hx
  have hf : s.fetch = none := by simp [State.fetch, State.mayFetch, hp]
  have ho : otherTurn s = resume s := if_neg (by simp [hh, hp])
  rw [Machine.step, hf]
  exact ho.trans (drive_settled hset)

/-- What E1 to E5 and X2 of an exchange of `v` leave, with the path `l` still to run. -/
def State.sent (s : State) (c : Ctx) (v : Byte) (l : List Micro) : State :=
  ((s.entered c).startTransfer c v).setPh c l

theorem State.Alone.sent_held {s : State} {c : Ctx} (h : s.Alone c) (hf : s.cfg.busFair = false) (v : Byte) (k : Nat)
    (l : List Micro) : (s.sent c v (⟨k, .x3⟩ :: l)).Held c where
  alone := ⟨by simp [State.sent, h.env], by simp [State.sent, h.halt], by simp [State.sent, h.ctx]⟩
  atX3 := by simp [State.sent, Bank.next]
  notDone := by simp [State.sent]
  noBus := by simp [State.sent, State.busWillComplete, hf]

/-- An exchange on a bus that does not complete sends its byte and is held. -/
theorem drive_exchange_hang {n k : Nat} {c : Ctx} {s : State} {b : ByteSrc} {rest : List Micro} (h : s.Alone c)
    (hn : s.nc ≠ 255) (hf : s.cfg.busFair = false) (hp : s.xferPending = false) :
    drive (n + 6) c (s.setPh c (exchangeSteps k b ++ rest)) =
      .next (s.sent c (b.value s.cfg (s.bank c)) ((exchangeSteps k b ++ rest).drop 6)) := by
  have e := h.entered
  have hheld := h.sent_held hf (b.value s.cfg (s.bank c)) k (⟨k, .x4⟩ :: (leaveSteps k ++ rest))
  simp only [exchangeSteps, List.append_assoc, List.cons_append, List.nil_append]
  rw [show n + 6 = (n + 1) + 5 by omega, drive_enter h hn, State.advance_cons,
    drive_effect e (by simp [State.ordinary, hp]), effect, State.entered_cfg, State.entered_value]
  exact drive_settled hheld.settled

/-! ### EXCHANGE, issued alone -/

section
variable {s : State} {a : Addr} {d : Byte} (hq : s.Quiet)
include hq

/-- EXCHANGE below 255 on a bus that completes: X1 to X5, run to their end (41_bus_transport.md R100). -/
theorem exec_exchange_alone (hb : s.BusUp) (hn : s.nc ≠ 255) :
    exec (.exchange a d) s = .next (((s.staged (.exchange a d)).exchanged s.ctx d).finish s.ctx) := by
  have h := exec_of_drive hq (i := .exchange a d) (path := exchangePath) rfl 14 (by decide) fun _ =>
    (drive_exchange (hq.alone _) (by simpa using hn) (by simpa using hb.fair) (by simpa using hb.ready)
      (by simpa using hb.idle)).trans (drive_finish ..)
  simpa [ByteSrc.value, Instr.data] using h

/-- EXCHANGE at 255: its ENTER's E1, E2 and failing E3 (40_critical_section.md R83, 41_bus_transport.md R111). -/
theorem exec_exchange_overflow (hn : s.nc = 255) :
    exec (.exchange a d) s = .next ((s.staged (.exchange a d)).overflowed s.ctx (exchangePath.drop 2)) :=
  exec_of_drive hq (path := exchangePath) rfl 3 (by decide) fun _ => drive_overflow (hq.alone _) (by simpa using hn)

/-- EXCHANGE on a bus that does not complete: X1 and X2, and then held at X3 (41_bus_transport.md R103). -/
theorem exec_exchange_hang (hf : s.cfg.busFair = false) (hp : s.xferPending = false) (hn : s.nc ≠ 255) :
    exec (.exchange a d) s = .next ((s.staged (.exchange a d)).sent s.ctx d (exchangePath.drop 6)) := by
  have h := exec_of_drive hq (i := .exchange a d) (path := exchangePath) rfl 6 (by decide) fun _ =>
    drive_exchange_hang (hq.alone _) (by simpa using hn) (by simpa using hf) (by simpa using hp)
  simpa [ByteSrc.value, Instr.data, exchangePath] using h

end

end Sys2Proof.Machine

namespace Sys2Proof

open Machine

/-- Settles O25: the state after acceptance with what X1 to X5 leave, or with what the failing E3 leaves. -/
theorem exchangeAtEveryCounterValue : Obligations.ExchangeAtEveryCounterValue := by
  refine fun s a d hq => ⟨fun hb hn => ?_, fun hn => ?_⟩
  · rw [exec_exchange_alone hq hb hn, State.staged]
    generalize s.ctx = c
    cases c <;> rfl
  · rw [exec_exchange_overflow hq hn, State.staged]
    generalize s.ctx = c
    cases c <;> rfl

/-- Settles O26: after X2 the context is held, and a step of a held context changes nothing. -/
theorem busHangHoldsTheContext : Obligations.BusHangHoldsTheContext := by
  intro s a d hq hf hp hn
  have hheld := (hq.alone (.exchange a d)).sent_held (by simpa using hf) d 0 (exchangePath.drop 7)
  exact ⟨_, exec_exchange_hang hq hf hp hn, hheld.atX3, hheld.notDone, by simp [State.sent], by simp [State.sent],
    hheld.alone.halt, by simp [State.sent], by simp [State.sent], by simp [State.sent], hheld.step⟩

/-- Settles O27: of all turns only its own micro-step and a reset change the phase of a context at X3. -/
theorem waitEndsOnlyWithTransferDone : Obligations.WaitEndsOnlyWithTransferDone := fun s _ h hx hp =>
  (turn_did h).of_wait_over (by simpa using hx) (by simpa using hp)

/-- Settles O28: the context is not held at X3, so its turn is the `TXD` write. -/
theorem secondTransferInFlightFaults : Obligations.SecondTransferInFlightFaults := by
  intro s k b rest he hh hp hx
  rcases he with he | he
  · have hw : s.waiting = false := by simp [State.waiting, hp]
    rw [turn_of_path he hh hp, hw]
    exact runOp_x2_of_pending hx ..
  · obtain ⟨env, he⟩ := List.head?_eq_some_iff.1 he
    rw [turn_of_seq he hh, seqTurn_of_path (m := ⟨k, .x2 b⟩) (rest := rest) (by simpa using hp)]
    exact runOp_x2_of_pending (s := { s with env := env }) hx ..

/-- Settles O29: the agent's turn is the completion, whose frame is read off its definition. -/
theorem busAgentCompletesTheTransfer : Obligations.BusAgentCompletesTheTransfer := by
  refine fun s env he => ⟨fun hx => ⟨State.completeTransfer { s with env := env }, ?_, ?_⟩, fun hx => ?_⟩
  · rw [turn_of_bus he, if_pos hx]
  · exact ⟨rfl, rfl, rfl, rfl, rfl, rfl, rfl, rfl, rfl, rfl, rfl, rfl, rfl⟩
  · rw [turn_of_bus he, if_neg (by simp [hx])]

end Sys2Proof
end

section
/-! A frame, exchange by exchange (41_bus_transport.md R100): what it leaves, field by field, and the bytes that come
back. -/

namespace Sys2Proof.Machine

/-- The bytes that the exchanges of `vs` receive, in order. -/
def State.replies (s : State) (c : Ctx) : List Byte → List Byte
  | [] => []
  | v :: vs => s.exchangeReply c v :: (s.exchanged c v).replies c vs

/-- A frame is the frame without its last byte and then that byte's exchange. -/
theorem State.framed_concat (c : Ctx) (v : Byte) : ∀ (s : State) (vs : List Byte),
    s.framed c (vs ++ [v]) = (s.framed c vs).exchanged c v
  | _, [] => rfl
  | s, w :: vs => State.framed_concat c v (s.exchanged c w) vs

theorem State.replies_concat (c : Ctx) (v : Byte) : ∀ (s : State) (vs : List Byte),
    s.replies c (vs ++ [v]) = s.replies c vs ++ [(s.framed c vs).exchangeReply c v]
  | _, [] => rfl
  | s, w :: vs => congrArg (s.exchangeReply c w :: ·) (State.replies_concat c v (s.exchanged c w) vs)

@[simp] theorem State.length_replies (c : Ctx) : ∀ (s : State) (vs : List Byte), (s.replies c vs).length = vs.length
  | _, [] => rfl
  | s, v :: vs => congrArg (· + 1) (State.length_replies c (s.exchanged c v) vs)

/-! ### What the exchanges leave alone -/

section
variable (c : Ctx)

@[simp] theorem State.framed_ie : ∀ (s : State) (vs : List Byte), (s.framed c vs).ie = s.ie
  | _, [] => rfl
  | s, v :: vs => by simp [State.framed, State.framed_ie]

@[simp] theorem State.framed_csN : ∀ (s : State) (vs : List Byte), (s.framed c vs).csN = s.csN
  | _, [] => rfl
  | s, v :: vs => by simp [State.framed, State.framed_csN]

@[simp] theorem State.framed_busReady : ∀ (s : State) (vs : List Byte), (s.framed c vs).busReady = s.busReady
  | _, [] => rfl
  | s, v :: vs => by simp [State.framed, State.framed_busReady]

@[simp] theorem State.framed_ctx : ∀ (s : State) (vs : List Byte), (s.framed c vs).ctx = s.ctx
  | _, [] => rfl
  | s, v :: vs => by simp [State.framed, State.framed_ctx]

@[simp] theorem State.framed_halt : ∀ (s : State) (vs : List Byte), (s.framed c vs).halt = s.halt
  | _, [] => rfl
  | s, v :: vs => by simp [State.framed, State.framed_halt]

@[simp] theorem State.framed_env : ∀ (s : State) (vs : List Byte), (s.framed c vs).env = s.env
  | _, [] => rfl
  | s, v :: vs => by simp [State.framed, State.framed_env]

@[simp] theorem State.framed_draws : ∀ (s : State) (vs : List Byte), (s.framed c vs).draws = s.draws + vs.length
  | _, [] => rfl
  | s, v :: vs => by simp [State.framed, State.framed_draws, Nat.add_assoc, Nat.add_comm]

theorem State.framed_bank_other {d : Ctx} (h : d ≠ c) : ∀ (s : State) (vs : List Byte), (s.framed c vs).bank d = s.bank d
  | _, [] => rfl
  | s, v :: vs => (State.framed_bank_other h _ vs).trans (s.exchanged_bank_other c d v h)

/-- Inside a region no exchange has an outermost ENTER. -/
theorem State.framed_tickEn : ∀ (s : State) (vs : List Byte), s.nc ≠ 0 → (s.framed c vs).tickEn = s.tickEn
  | _, [], _ => rfl
  | s, v :: vs, h => by
    rw [State.framed, State.framed_tickEn _ vs (by simpa using h), State.exchanged_tickEn, if_neg h]

/-! ### What they write -/

theorem State.framed_trace : ∀ (s : State) (vs : List Byte), (s.framed c vs).trace =
    s.trace ++ (vs.zip (s.replies c vs)).flatMap fun p => exchangeEvents s.nc s.ie p.1 p.2
  | s, [] => by simp [State.framed]
  | s, v :: vs => by simp [State.framed, State.framed_trace, State.replies]

theorem State.framed_txd : ∀ (s : State) (vs : List Byte), (s.framed c vs).txd = vs.getLastD s.txd
  | _, [] => rfl
  | s, v :: vs => by rw [State.framed, State.framed_txd, List.getLastD_cons, State.exchanged_txd]

theorem State.framed_rxd : ∀ (s : State) (vs : List Byte), (s.framed c vs).rxd = (s.replies c vs).getLastD s.rxd
  | _, [] => rfl
  | s, v :: vs => by rw [State.framed, State.framed_rxd, State.replies, List.getLastD_cons, State.exchanged_rxd]

/-- Where the transaction's own ENTER has captured `IE`, the exchanges' captures find the same. -/
theorem State.framed_bank : ∀ (s : State) (vs : List Byte), (s.bank c).snap = s.ie → (s.framed c vs).bank c =
    { s.bank c with outb := vs.getLastD (s.bank c).outb, inb := (s.replies c vs).getLastD (s.bank c).inb }
  | _, [], _ => rfl
  | s, v :: vs, h => by
    rw [State.framed, State.framed_bank _ vs (by simp), State.replies, List.getLastD_cons, List.getLastD_cons,
      State.exchanged_bank, ← h]

/-- After a frame the bus has completed its last transfer and has none in flight (10_state.md R25, R27). -/
theorem State.framed_transfer (s : State) {vs : List Byte} (h : vs ≠ []) :
    (s.framed c vs).xferDone = true ∧ (s.framed c vs).xferPending = false := by
  rw [← List.dropLast_concat_getLast h, State.framed_concat]
  exact ⟨rfl, rfl⟩

end

end Sys2Proof.Machine
end

section
/-! The shape that INIT, READ and WRITE share (42_sram_device.md R115): an ENTER, steps of the transaction's own, a frame,
further steps of its own, a LEAVE. What such a run leaves is said here once for the three. -/

namespace Sys2Proof.Machine

/-! ### The steps that are the transaction's own -/

/-- The steps of a transaction that belong to no ENTER, LEAVE or EXCHANGE (42_sram_device.md R116, R122, R126). -/
def Op.own : Op → Bool
  | .i1 | .csHigh | .csLow | .i3 | .i6 | .t6 => true
  | .e1 | .e2 | .e3 | .e4 | .e5 | .l1 | .l2 | .l3 | .l4 | .l5 | .x2 _ | .x3 | .x4 => false

/-- The events of such a step. -/
def Op.ownEvents (p : Config) : Op → List Event
  | .i1 => [.cfg]
  | .csHigh | .i6 => [.cs true]
  | .csLow => [.cs false]
  | .i3 => if p.initCsLow then [.cs false] else []
  | .t6 | .e1 | .e2 | .e3 | .e4 | .e5 | .l1 | .l2 | .l3 | .l4 | .l5 | .x2 _ | .x3 | .x4 => []

/-- What such a step does to the bank of the context that takes it: the end of T6 stores the byte received. -/
def Op.stored (b : Bank) : Op → Bank
  | .t6 => { b with rdata := b.inb }
  | .i1 | .csHigh | .csLow | .i3 | .i6 | .e1 | .e2 | .e3 | .e4 | .e5 | .l1 | .l2 | .l3 | .l4 | .l5 | .x2 _ | .x3 | .x4 => b

/-- Own steps `os` of context `c` lead from `s` to `t`: chip-select, the device, the bus's configuration and `RDATA[c]` may
have changed, and of the rest only the trace has. -/
structure State.OwnSteps (c : Ctx) (os : List Op) (s t : State) : Prop where
  nc : t.nc = s.nc
  ie : t.ie = s.ie
  tickEn : t.tickEn = s.tickEn
  ctx : t.ctx = s.ctx
  halt : t.halt = s.halt
  env : t.env = s.env
  cfg : t.cfg = s.cfg
  txd : t.txd = s.txd
  rxd : t.rxd = s.rxd
  xferDone : t.xferDone = s.xferDone
  xferPending : t.xferPending = s.xferPending
  ready : s.busReady = true → t.busReady = true
  draws : s.draws ≤ t.draws
  trace : t.trace = s.trace ++ os.flatMap (Op.ownEvents s.cfg)
  bank : t.bank c = os.foldl Op.stored (s.bank c)
  other : ∀ d, d ≠ c → t.bank d = s.bank d

theorem State.OwnSteps.nil (c : Ctx) (s : State) : State.OwnSteps c [] s s := by
  constructor <;> simp

theorem State.OwnSteps.trans {c : Ctx} {os ps : List Op} {s t u : State} (h : State.OwnSteps c os s t)
    (h' : State.OwnSteps c ps t u) : State.OwnSteps c (os ++ ps) s u where
  nc := h'.nc.trans h.nc
  ie := h'.ie.trans h.ie
  tickEn := h'.tickEn.trans h.tickEn
  ctx := h'.ctx.trans h.ctx
  halt := h'.halt.trans h.halt
  env := h'.env.trans h.env
  cfg := h'.cfg.trans h.cfg
  txd := h'.txd.trans h.txd
  rxd := h'.rxd.trans h.rxd
  xferDone := h'.xferDone.trans h.xferDone
  xferPending := h'.xferPending.trans h.xferPending
  ready := h'.ready ∘ h.ready
  draws := h.draws.trans h'.draws
  trace := by rw [h'.trace, h.trace, h.cfg, List.flatMap_append, List.append_assoc]
  bank := by rw [h'.bank, h.bank, List.foldl_append]
  other d hd := (h'.other d hd).trans (h.other d hd)

/-- A chip-select write draws or does not. -/
theorem State.draws_le_writeCs (s : State) (v : Bool) : s.draws ≤ (s.writeCs v).draws := by
  cases h : s.csN <;> cases v <;> simp [State.writeCs, h]

theorem State.draws_le_endInit (s : State) : s.draws ≤ s.endInit.draws :=
  (s.draws_le_writeCs true).trans (Nat.le_succ _)

theorem effect_ownSteps (c : Ctx) (s : State) {o : Op} (ho : o.own = true) : State.OwnSteps c [o] s (effect c s o) := by
  have hother : ∀ d, d ≠ c → (effect c s o).bank d = s.bank d := fun d hd => effect_bank_other hd s o
  cases o with
  | i1 | csHigh | csLow | i6 | t6 =>
    constructor
    case other => exact hother
    all_goals simp [effect, Op.ownEvents, Op.stored, State.draws_le_writeCs, State.draws_le_endInit]
  | i3 =>
    by_cases hl : s.cfg.initCsLow = true <;> constructor
    case pos.other | neg.other => exact hother
    all_goals simp [effect, hl, Op.ownEvents, Op.stored, State.draws_le_writeCs]
  | e1 | e2 | e3 | e4 | e5 | l1 | l2 | l3 | l4 | l5 | x2 | x3 | x4 => exact nomatch ho

theorem foldl_ownSteps (c : Ctx) : ∀ (os : List Op) (s : State), (∀ o ∈ os, o.own = true) →
    State.OwnSteps c os s (os.foldl (effect c) s)
  | [], s, _ => .nil c s
  | o :: os, s, h => (effect_ownSteps c s (h o List.mem_cons_self)).trans
      (foldl_ownSteps c os _ fun p hp => h p (List.mem_cons_of_mem o hp))

/-! ### A whole transaction -/

/-- The command `i` accepted, its own ENTER run, and the own steps before its frame. -/
def State.opened (s : State) (i : Instr) (opening : List Op) : State :=
  opening.foldl (effect s.ctx) ((s.staged i).entered s.ctx)

/-- The same with the frame `vs` sent and the own steps after it run. -/
def State.closed (s : State) (i : Instr) (opening : List Op) (vs : List Byte) (closing : List Op) : State :=
  closing.foldl (effect s.ctx) ((s.opened i opening).framed s.ctx vs)

/-- The whole transaction, to its end. -/
def State.transacted (s : State) (i : Instr) (opening : List Op) (vs : List Byte) (closing : List Op) : State :=
  ((s.closed i opening vs closing).left s.ctx).finish s.ctx

@[simp] theorem State.entered_txd (s : State) (c : Ctx) : (s.entered c).txd = s.txd := by cases c <;> rfl
@[simp] theorem State.entered_rxd (s : State) (c : Ctx) : (s.entered c).rxd = s.rxd := by cases c <;> rfl
@[simp] theorem State.staged_txd (s : State) (i : Instr) : (s.staged i).txd = s.txd := State.setBank_txd ..
@[simp] theorem State.staged_rxd (s : State) (i : Instr) : (s.staged i).rxd = s.rxd := State.setBank_rxd ..

theorem State.finish_result (s : State) (c : Ctx) : ((s.finish c).bank c).result = (s.bank c).result := by
  rw [State.finish_bank]; rfl

theorem State.staged_bank_other (s : State) (i : Instr) {d : Ctx} (h : d ≠ s.ctx) : (s.staged i).bank d = s.bank d := by
  simp [State.staged, h]

/-- The bytes that come back in its frame. -/
def State.frameReplies (s : State) (i : Instr) (opening : List Op) (vs : List Byte) : List Byte :=
  (s.opened i opening).replies s.ctx vs

/-- What a transaction that found `s` leaves in the registers, whichever it is; `b` is the last byte sent and `r` the last
received. -/
structure State.LeavesBlock (s t : State) (b r : Byte) : Prop where
  nc : t.nc = s.nc
  ie : t.ie = s.ie
  tickEn : t.tickEn = if s.nc = 0 then true else s.tickEn
  other : ∀ d, d ≠ s.ctx → t.bank d = s.bank d
  ctx : t.ctx = s.ctx
  halt : t.halt = s.halt
  txd : t.txd = b
  rxd : t.rxd = r
  xferDone : t.xferDone = true
  xferPending : t.xferPending = false
  env : t.env = s.env
  cfg : t.cfg = s.cfg
  ready : s.busReady = true → t.busReady = true
  rsp : t.rspData = (t.bank s.ctx).result.getD 0

section
variable {s : State} {i : Instr} {opening closing : List Op} (vs : List Byte)
  (hopen : ∀ o ∈ opening, o.own = true) (hclose : ∀ o ∈ closing, o.own = true)

include hopen in
theorem State.opened_ownSteps : State.OwnSteps s.ctx opening ((s.staged i).entered s.ctx) (s.opened i opening) :=
  foldl_ownSteps s.ctx opening _ hopen

include hclose in
theorem State.closed_ownSteps :
    State.OwnSteps s.ctx closing ((s.opened i opening).framed s.ctx vs) (s.closed i opening vs closing) :=
  foldl_ownSteps s.ctx closing _ hclose

include hopen hclose

/-- The frame of a transaction: the registers it leaves as they were, and the bus's, which its last exchange wrote. -/
theorem State.transacted_leavesBlock (hn : s.nc.toNat ≤ 253) (hv : vs ≠ []) :
    s.LeavesBlock (s.transacted i opening vs closing) (vs.getLastD s.txd)
      ((s.frameReplies i opening vs).getLastD s.rxd) := by
  have ho := State.opened_ownSteps (s := s) (i := i) hopen
  have hc := State.closed_ownSteps (s := s) (i := i) (opening := opening) vs hclose
  obtain ⟨hdone, hpending⟩ := (s.opened i opening).framed_transfer s.ctx hv
  have h0 : s.nc + 1#8 ≠ 0#8 := (Count.transaction hn).2.2
  have h1 : s.nc + 1#8 = 1#8 ↔ s.nc = 0#8 := by constructor <;> intro h <;> bv_omega
  have hnc : (s.opened i opening).nc ≠ 0 := by simpa [ho.nc] using h0
  constructor
  case tickEn =>
    rw [State.transacted, State.finish_tickEn, State.left_tickEn, hc.nc, hc.tickEn, State.framed_tickEn _ _ _ hnc, ho.tickEn]
    by_cases hz : s.nc = 0#8 <;> simp [ho.nc, h1, hz]
  case other =>
    intro d hd
    rw [State.transacted, State.finish_bank_other _ _ _ hd, State.left_bank_other _ _ _ hd, hc.other d hd,
      State.framed_bank_other _ hd, ho.other d hd, State.entered_bank_other _ _ _ hd, State.staged_bank_other _ _ hd]
  case txd =>
    rw [State.transacted, State.finish_txd, State.left_txd, hc.txd, State.framed_txd, ho.txd, State.entered_txd,
      State.staged_txd]
  case rxd =>
    rw [State.transacted, State.finish_rxd, State.left_rxd, hc.rxd, State.framed_rxd, ho.rxd, State.entered_rxd,
      State.staged_rxd, State.frameReplies]
  case ready =>
    intro hr
    simpa [State.transacted] using hc.ready (by simpa using ho.ready (by simpa using hr))
  case rsp => rw [State.transacted, State.finish_result, State.finish_rspData]
  all_goals simp [State.transacted, hc.nc, hc.ie, hc.ctx, hc.halt, hc.env, hc.cfg, hc.xferDone, hc.xferPending, hdone,
    hpending, ho.nc, ho.ie, ho.ctx, ho.halt, ho.env, ho.cfg]

/-- The events of a transaction (42_sram_device.md R115). -/
theorem State.transacted_trace : (s.transacted i opening vs closing).trace = s.trace ++
    transactionEvents s.nc s.ie (opening.flatMap (Op.ownEvents s.cfg) ++
      frameEvents s.nc s.ie (vs.zip (s.frameReplies i opening vs)) ++ closing.flatMap (Op.ownEvents s.cfg)) s.ctx
      ((s.transacted i opening vs closing).bank s.ctx).result := by
  have ho := State.opened_ownSteps (s := s) (i := i) hopen
  have hc := State.closed_ownSteps (s := s) (i := i) (opening := opening) vs hclose
  rw [State.transacted, State.finish_result, State.finish_trace]
  simp [hc.nc, hc.ie, hc.trace, State.framed_trace, ho.nc, ho.ie, ho.trace, ho.cfg, transactionEvents, frameEvents,
    State.frameReplies]

/-- The issuing context's bank after a transaction: what acceptance staged, what the exchanges wrote, and what the closing
steps made of it. -/
theorem State.transacted_bank (hsnap : ∀ b, opening.foldl Op.stored b = b) :
    (s.transacted i opening vs closing).bank s.ctx =
      { closing.foldl Op.stored { s.bank s.ctx with
          cmd := i.code, addr := i.addr, wdata := i.data, snap := s.ie, outb := vs.getLastD (s.bank s.ctx).outb,
          inb := (s.frameReplies i opening vs).getLastD (s.bank s.ctx).inb } with snap := s.ie, ph := [] } := by
  have ho := State.opened_ownSteps (s := s) (i := i) hopen
  have hc := State.closed_ownSteps (s := s) (i := i) (opening := opening) vs hclose
  have hb : (s.opened i opening).bank s.ctx =
      { s.bank s.ctx with cmd := i.code, addr := i.addr, wdata := i.data, snap := s.ie } := by
    rw [ho.bank, hsnap]; simp
  have hf := State.framed_bank s.ctx (s.opened i opening) vs (by rw [hb, ho.ie]; simp)
  rw [State.transacted, State.finish_bank, State.left_bank, hc.bank, hf, hb, hc.ie, State.framed_ie, ho.ie]
  simp [State.frameReplies]

end

end Sys2Proof.Machine
end

section
/-! The device through a frame that keeps to the three shapes (20_memory.md R49 to R54), and what it answers. -/

namespace Sys2Proof.Machine

/-- Do these bytes begin one of the three shapes (20_memory.md R54)? -/
def Device.Shaped (p : Config) (fr : List Byte) : Prop :=
  Device.beginsInit p fr = true ∨ Device.beginsData p fr = true

theorem Device.beginsInit_of_append {p : Config} {l m : List Byte} (h : Device.beginsInit p (l ++ m) = true) :
    Device.beginsInit p l = true := by
  rw [Device.beginsInit, List.isPrefixOf_iff_prefix] at h ⊢
  exact (List.prefix_append l m).trans h

theorem Device.beginsInit_of_long {p : Config} {fr : List Byte} (h : 2 < fr.length) : Device.beginsInit p fr = false := by
  rw [Bool.eq_false_iff, Device.beginsInit, Ne, List.isPrefixOf_iff_prefix]
  exact fun hp => absurd hp.length_le (by simpa using h)

theorem Device.beginsData_of_append {p : Config} {l m : List Byte} (h : Device.beginsData p (l ++ m) = true) :
    Device.beginsData p l = true := by
  match l, m, h with
  | [], _, _ => rfl
  | [_], [], h => exact h
  | [_], _ :: _, h =>
    simp only [List.cons_append, List.nil_append, Device.beginsData, Bool.and_eq_true] at h
    exact h.1.1
  | o :: e :: rest, m, h =>
    simp only [List.cons_append, Device.beginsData, Bool.and_eq_true, decide_eq_true_eq, List.length_append] at h ⊢
    exact ⟨h.1, by omega⟩

theorem Device.Shaped.of_append {p : Config} {l m : List Byte} (h : Device.Shaped p (l ++ m)) : Device.Shaped p l :=
  h.imp Device.beginsInit_of_append Device.beginsData_of_append

theorem Device.header_of_short (p : Config) {fr : List Byte} (h : fr.length < 4) : Device.header p fr = none := by
  match fr, h with
  | [], _ | [_], _ | [_, _], _ | [_, _, _], _ => rfl

/-- The frame so far: the bytes `vs`, all of context `c`, within the three shapes. -/
structure Device.InFrame (d : Device) (c : Ctx) (vs : List Byte) : Prop where
  fr : d.fr = vs
  frBad : d.frBad = false
  owner : vs = [] ∨ d.frOwner = c

section
variable {d : Device} {p : Config} {c : Ctx} {vs : List Byte} {o : Byte}

theorem Device.InFrame.append (h : d.InFrame c vs) (o : Byte) : (d.append c o).InFrame c (vs ++ [o]) :=
  ⟨by rw [Device.append_fr, h.fr], h.frBad, .inr rfl⟩

theorem Device.InFrame.spoils (h : d.InFrame c vs) (hp : Device.Shaped p (vs ++ [o])) : d.spoils p true c o = false := by
  obtain ⟨rfl, hbad, howner⟩ := h
  have hmixed : (!d.fr.isEmpty && decide (c ≠ d.frOwner)) = false := by
    rcases howner with h | h <;> simp [h]
  have hshape : (Device.beginsInit p (d.fr ++ [o]) || Device.beginsData p (d.fr ++ [o])) = true := by
    simpa [Device.Shaped] using hp
  simp only [Device.spoils, hbad, hmixed, hshape]
  rfl

/-- A byte that keeps the frame in shape is appended, whatever becomes of the cells. -/
theorem Device.InFrame.exchange (h : d.InFrame c vs) (hp : Device.Shaped p (vs ++ [o])) (n : Nat) :
    (d.exchange p true c o n).InFrame c (vs ++ [o]) ∧ (d.exchange p true c o n).known = d.known := by
  rw [Device.exchange, if_neg (by simp [h.spoils hp])]
  split
  · exact ⟨Device.InFrame.append (d := d.unspecify n) ⟨h.fr, h.frBad, h.owner⟩ o, rfl⟩
  · split
    · split
      · exact ⟨Device.InFrame.append (d := d.write _ o) ⟨h.fr, h.frBad, h.owner⟩ o, rfl⟩
      · exact ⟨h.append o, rfl⟩
    · exact ⟨h.append o, rfl⟩

/-- The bytes of a header and those of an INIT frame change no cell (20_memory.md R50, R51, R55). -/
theorem Device.InFrame.exchange_read (h : d.InFrame c vs) (hp : Device.Shaped p (vs ++ [o])) (hl : vs.length < 4)
    (hk : d.known = true ∨ Device.beginsInit p (vs ++ [o]) = true) (n : Nat) (x : Addr) :
    (d.exchange p true c o n).read x = d.read x := by
  have hkeep : ¬ (!d.known && !Device.beginsInit p (d.fr ++ [o])) = true := by
    rw [h.fr]; rcases hk with hk | hk <;> simp [hk]
  rw [Device.exchange, if_neg (by simp [h.spoils hp]), if_neg hkeep, Device.header_of_short p (by rwa [h.fr])]
  exact d.append_read c o x

end

/-! ### The exchanges of a frame, with chip-select asserted -/

/-- Chip-select asserted on a configured bus: an exchange reaches the device (41_bus_transport.md R106). -/
structure State.Selected (s : State) : Prop where
  csN : s.csN = false
  ready : s.busReady = true

section
variable {c : Ctx}

theorem State.Selected.device {s : State} (h : s.Selected) (o : Byte) :
    s.exchangeDevice c o = s.dev.exchange s.cfg true c o s.draws := by
  simp [State.exchangeDevice, h.csN, h.ready]

theorem State.Selected.reply {s : State} (h : s.Selected) (o : Byte) :
    s.exchangeReply c o = s.dev.reply s.cfg true c o s.draws := by
  simp [State.exchangeReply, h.csN, h.ready]

theorem State.Selected.exchanged {s : State} (h : s.Selected) (o : Byte) : (s.exchanged c o).Selected :=
  ⟨by simp [h.csN], by simp [h.ready]⟩

theorem State.Selected.framed {s : State} (h : s.Selected) (ws : List Byte) : (s.framed c ws).Selected :=
  ⟨by simp [h.csN], by simp [h.ready]⟩

/-- Bytes that keep the frame in shape are appended one after another. -/
theorem State.framed_inFrame : ∀ {ws : List Byte} {s : State} {vs : List Byte}, s.Selected → s.dev.InFrame c vs →
    Device.Shaped s.cfg (vs ++ ws) → (s.framed c ws).dev.InFrame c (vs ++ ws) ∧ (s.framed c ws).dev.known = s.dev.known
  | [], _, _, _, h, _ => by rw [List.append_nil]; exact ⟨h, rfl⟩
  | o :: ws, s, vs, hs, h, hp => by
    rw [List.append_cons] at hp ⊢
    obtain ⟨hin, hknown⟩ := h.exchange hp.of_append s.draws
    rw [← hs.device] at hin hknown
    obtain ⟨ihin, ihknown⟩ := State.framed_inFrame (hs.exchanged o) hin (by simpa using hp)
    exact ⟨ihin, ihknown.trans hknown⟩

/-- As long as they are no more than a header, or begin an INIT frame, they change no cell. -/
theorem State.framed_read : ∀ {ws : List Byte} {s : State} {vs : List Byte}, s.Selected → s.dev.InFrame c vs →
    Device.Shaped s.cfg (vs ++ ws) → (vs ++ ws).length ≤ 4 →
    s.dev.known = true ∨ Device.beginsInit s.cfg (vs ++ ws) = true → ∀ x, (s.framed c ws).dev.read x = s.dev.read x
  | [], _, _, _, _, _, _, _, _ => rfl
  | o :: ws, s, vs, hs, h, hp, hl, hk, x => by
    rw [List.append_cons] at hp hl hk
    obtain ⟨hin, hknown⟩ := h.exchange hp.of_append s.draws
    have hread := h.exchange_read hp.of_append (by simp at hl; omega) (hk.imp_right Device.beginsInit_of_append) s.draws x
    rw [← hs.device] at hin hknown hread
    exact (State.framed_read (hs.exchanged o) hin (by simpa using hp) hl (by simpa [hknown] using hk) x).trans hread

end

end Sys2Proof.Machine
end

section
/-! The device through a READ or a WRITE issued alone (20_memory.md R50, R51, R54). -/

namespace Sys2Proof.Machine

/-- The first four bytes of a read or a write frame (30_encoding.md R67, R68, R70). -/
def dataHeader (p : Config) (op : Byte) (a : Addr) : List Byte := [op, p.opExt, addrHighByte a, addrLowByte a]

/-- The two address bytes, high byte first, are the address. -/
theorem addrBytes_append (a : Addr) : (addrHighByte a ++ addrLowByte a : BitVec (8 + 8)) = a := by
  unfold addrHighByte addrLowByte
  rw [BitVec.extractLsb'_append_extractLsb'_eq_extractLsb' (by rfl), BitVec.extractLsb'_eq_self]

theorem dataHeader_header (p : Config) (op : Byte) (a : Addr) : Device.header p (dataHeader p op a) = some (op, a) := by
  simp only [dataHeader, Device.header, if_pos, addrBytes_append]

theorem beginsData_dataHeader {p : Config} {op : Byte} (hop : op = p.opRead ∨ op = p.opWrite) (a : Addr) (v : Byte) :
    Device.beginsData p (dataHeader p op a ++ [v]) = true := by
  simpa [dataHeader, Device.beginsData] using hop

theorem Device.csRise_of_whole {d : Device} {p : Config} {c : Ctx} {vs : List Byte} (h : d.InFrame c vs)
    (hw : Device.wholeFrame p vs = true) (n : Nat) : d.csRise p n = d := by
  rw [Device.csRise, if_neg (by simp [h.frBad, h.fr, hw])]

/-! ### Chip-select edges -/

theorem State.writeCs_low_dev (s : State) : (s.writeCs false).dev = if s.csN then s.dev.csFall else s.dev := by
  cases h : s.csN <;> simp [State.writeCs, h]

@[simp] theorem State.writeCs_low_draws (s : State) : (s.writeCs false).draws = s.draws := by
  cases h : s.csN <;> simp [State.writeCs, h]

theorem State.writeCs_high_dev (s : State) :
    (s.writeCs true).dev = if s.csN then s.dev else s.dev.csRise s.cfg s.draws := by
  cases h : s.csN <;> simp [State.writeCs, h]

/-- A frame that is fresh when the line is asserted is empty, and the edge changes no cell (20_memory.md R49). -/
theorem State.FrameFresh.writeCs_low {s : State} (h : s.FrameFresh) (c : Ctx) : (s.writeCs false).dev.InFrame c [] ∧
    (s.writeCs false).dev.known = s.dev.known ∧ ∀ x, (s.writeCs false).dev.read x = s.dev.read x := by
  rw [State.writeCs_low_dev]
  by_cases hcs : s.csN = true
  · rw [if_pos hcs]; exact ⟨⟨rfl, rfl, .inl rfl⟩, rfl, fun _ => rfl⟩
  · obtain ⟨hfr, hbad⟩ := h.resolve_left hcs
    rw [if_neg hcs]; exact ⟨⟨hfr, hbad, .inl rfl⟩, rfl, fun _ => rfl⟩

/-! ### A data frame -/

section
variable {s : State} (i : Instr) {op : Byte} (a : Addr) (v : Byte)

/-- The device when the header of a READ or a WRITE has been received. -/
def State.atHeader (s : State) (i : Instr) (op : Byte) (a : Addr) : Device :=
  ((s.opened i [.csLow]).framed s.ctx (dataHeader s.cfg op a)).dev

theorem State.opened_csLow : s.opened i [.csLow] = ((s.staged i).entered s.ctx).writeCs false := rfl

theorem State.opened_selected (hr : s.busReady = true) : (s.opened i [.csLow]).Selected :=
  ⟨by simp [State.opened_csLow], by simp [State.opened_csLow, hr]⟩

theorem State.FrameFresh.opened (hf : s.FrameFresh) (c : Ctx) : (s.opened i [.csLow]).dev.InFrame c [] ∧
    (s.opened i [.csLow]).dev.known = s.dev.known ∧ ∀ x, (s.opened i [.csLow]).dev.read x = s.dev.read x := by
  have hf' : ((s.staged i).entered s.ctx).FrameFresh := by simpa [State.FrameFresh] using hf
  simpa [State.opened_csLow] using hf'.writeCs_low c

/-- A header keeps a fresh frame in shape. -/
theorem State.opened_shaped (hop : op = s.cfg.opRead ∨ op = s.cfg.opWrite) :
    Device.Shaped (s.opened i [.csLow]).cfg ([] ++ dataHeader s.cfg op a) :=
  .inr (by simpa [State.opened_csLow] using Device.beginsData_of_append (beginsData_dataHeader hop a 0))

/-- The closing of a READ or a WRITE ends the frame. -/
theorem State.closed_data_dev (vs : List Byte) {closing : List Op} (hc : closing = [.csHigh] ∨ closing = [.t6, .csHigh]) :
    (s.closed i [.csLow] vs closing).dev =
      ((s.opened i [.csLow]).framed s.ctx vs).dev.csRise s.cfg (s.draws + vs.length) := by
  rcases hc with rfl | rfl <;> simp [State.closed, effect, State.writeCs_high_dev, State.opened_csLow]

variable (hr : s.busReady = true)
include hr

/-- The byte after the header is one more exchange with the device. -/
theorem State.framed_data_dev : ((s.opened i [.csLow]).framed s.ctx (dataHeader s.cfg op a ++ [v])).dev =
    (s.atHeader i op a).exchange s.cfg true s.ctx v (s.draws + 4) := by
  have hsel := (State.opened_selected i hr).framed (c := s.ctx) (dataHeader s.cfg op a)
  rw [State.framed_concat, State.exchanged_dev, hsel.device]
  simp [State.opened_csLow, State.atHeader, dataHeader]

/-- The last reply of a data frame is the device's to the byte after the header. -/
theorem State.frameReplies_data : (s.frameReplies i [.csLow] (dataHeader s.cfg op a ++ [v])).getLast? =
    some ((s.atHeader i op a).reply s.cfg true s.ctx v (s.draws + 4)) := by
  have hsel := (State.opened_selected i hr).framed (c := s.ctx) (dataHeader s.cfg op a)
  rw [State.frameReplies, State.replies_concat, List.getLast?_concat, hsel.reply]
  simp [State.opened_csLow, State.atHeader, dataHeader]

variable (hf : s.FrameFresh) (hop : op = s.cfg.opRead ∨ op = s.cfg.opWrite)
include hf hop

theorem State.atHeader_inFrame : (s.atHeader i op a).InFrame s.ctx (dataHeader s.cfg op a) ∧
    (s.atHeader i op a).known = s.dev.known := by
  obtain ⟨hin, hknown, -⟩ := hf.opened i s.ctx
  have hp := State.opened_shaped i a hop
  obtain ⟨hin', hknown'⟩ := State.framed_inFrame (State.opened_selected i hr) hin hp
  exact ⟨hin', hknown'.trans hknown⟩

theorem State.atHeader_read (hk : s.dev.known = true) (x : Addr) : (s.atHeader i op a).read x = s.dev.read x := by
  obtain ⟨hin, hknown, hread⟩ := hf.opened i s.ctx
  have hp := State.opened_shaped i a hop
  have hheader := State.framed_read (State.opened_selected i hr) hin hp (by simp [dataHeader]) (.inl (hknown.trans hk)) x
  exact hheader.trans (hread x)

/-- A data frame is whole when it ends, so the device keeps what the last byte made of it. -/
theorem State.transacted_data_dev {closing : List Op} (hc : closing = [.csHigh] ∨ closing = [.t6, .csHigh]) :
    (s.transacted i [.csLow] (dataHeader s.cfg op a ++ [v]) closing).dev =
      (s.atHeader i op a).exchange s.cfg true s.ctx v (s.draws + 4) := by
  have hshape : Device.beginsData s.cfg (dataHeader s.cfg op a ++ [v]) = true := beginsData_dataHeader hop a v
  obtain ⟨hin, -⟩ := (State.atHeader_inFrame i a hr hf hop).1.exchange (.inr hshape) (s.draws + 4)
  have hwhole : Device.wholeFrame s.cfg (dataHeader s.cfg op a ++ [v]) = true := by
    rw [Device.wholeFrame, hshape]; simp [dataHeader]
  rw [State.transacted, State.finish_dev, State.left_dev, State.closed_data_dev i _ hc, State.framed_data_dev i a v hr,
    Device.csRise_of_whole hin hwhole]

end

end Sys2Proof.Machine
end

section
/-! READ and WRITE issued alone (42_sram_device.md R122 to R129), on the whole: what they answer, leave and do to the
cells. -/

namespace Sys2Proof.Machine

/-- What READ leaves. -/
def State.afterRead (s : State) (a : Addr) (d : Byte) : State :=
  s.transacted (.read a d) [.csLow] (dataHeader s.cfg s.cfg.opRead a ++ [sentinelByte]) [.t6, .csHigh]

/-- What WRITE leaves. -/
def State.afterWrite (s : State) (a : Addr) (v : Byte) : State :=
  s.transacted (.write a v) [.csLow] (dataHeader s.cfg s.cfg.opWrite a ++ [v]) [.csHigh]

/-- A transaction with a data frame, from its T0 or W0 on: the five bytes that come back, the block it leaves, the bank of
the issuing context and the events. -/
theorem State.transacted_data {s : State} (hn : s.nc.toNat ≤ 253) (i : Instr) (op : Byte) (a : Addr) (v : Byte)
    {closing : List Op} (hclose : ∀ o ∈ closing, o.own = true) :
    ∃ r₀ r₁ r₂ r₃ r, s.frameReplies i [.csLow] (dataHeader s.cfg op a ++ [v]) = [r₀, r₁, r₂, r₃, r] ∧
      s.LeavesBlock (s.transacted i [.csLow] (dataHeader s.cfg op a ++ [v]) closing) v r ∧
      (s.transacted i [.csLow] (dataHeader s.cfg op a ++ [v]) closing).bank s.ctx =
        { closing.foldl Op.stored { s.bank s.ctx with
            cmd := i.code, addr := i.addr, wdata := i.data, snap := s.ie, outb := v, inb := r } with
          snap := s.ie, ph := [] } ∧
      (s.transacted i [.csLow] (dataHeader s.cfg op a ++ [v]) closing).trace = s.trace ++
        transactionEvents s.nc s.ie ([Event.cs false] ++ frameEvents s.nc s.ie [(op, r₀), (s.cfg.opExt, r₁),
          (addrHighByte a, r₂), (addrLowByte a, r₃), (v, r)] ++ closing.flatMap (Op.ownEvents s.cfg)) s.ctx
          ((s.transacted i [.csLow] (dataHeader s.cfg op a ++ [v]) closing).bank s.ctx).result := by
  obtain ⟨r₀, r₁, r₂, r₃, r, hr⟩ : ∃ r₀ r₁ r₂ r₃ r,
    s.frameReplies i [.csLow] (dataHeader s.cfg op a ++ [v]) = [r₀, r₁, r₂, r₃, r] := ⟨_, _, _, _, _, rfl⟩
  have hopen : ∀ o ∈ [Op.csLow], o.own = true := by decide
  have hleaves := State.transacted_leavesBlock (i := i) (dataHeader s.cfg op a ++ [v]) hopen hclose hn (by simp)
  have hbank := State.transacted_bank (s := s) (i := i) (dataHeader s.cfg op a ++ [v]) hopen hclose fun _ => rfl
  have htrace := State.transacted_trace (s := s) (i := i) (dataHeader s.cfg op a ++ [v]) hopen hclose
  rw [hr] at hleaves hbank htrace
  exact ⟨r₀, r₁, r₂, r₃, r, hr, hleaves, hbank, htrace⟩

theorem read_closing_own : ∀ o ∈ [Op.t6, .csHigh], o.own = true := by decide

theorem write_closing_own : ∀ o ∈ [Op.csHigh], o.own = true := by decide

section
variable {s : State} {a : Addr} {d : Byte}

@[simp] theorem State.afterRead_csN : (s.afterRead a d).csN = true := by
  simp [State.afterRead, State.transacted, State.closed, effect]

@[simp] theorem State.afterWrite_csN : (s.afterWrite a d).csN = true := by
  simp [State.afterWrite, State.transacted, State.closed, effect]

/-- READ from `NC <= 253`: what it leaves (42_sram_device.md R122). -/
theorem State.afterRead_leaves (hn : s.nc.toNat ≤ 253) (a : Addr) (d : Byte) : ∃ r₀ r₁ r₂ r₃ r,
    s.frameReplies (.read a d) [.csLow] (dataHeader s.cfg s.cfg.opRead a ++ [sentinelByte]) = [r₀, r₁, r₂, r₃, r] ∧
    s.LeavesBlock (s.afterRead a d) sentinelByte r ∧ (s.afterRead a d).rspData = r ∧
    (s.afterRead a d).bank s.ctx = { s.bank s.ctx with
      snap := s.ie, cmd := 5, addr := a, wdata := d, rdata := r, outb := sentinelByte, inb := r, ph := [] } ∧
    (s.afterRead a d).trace = s.trace ++ transactionEvents s.nc s.ie ([Event.cs false] ++ frameEvents s.nc s.ie
      [(s.cfg.opRead, r₀), (s.cfg.opExt, r₁), (addrHighByte a, r₂), (addrLowByte a, r₃), (sentinelByte, r)] ++
      [Event.cs true]) s.ctx (some r) := by
  obtain ⟨r₀, r₁, r₂, r₃, r, hr, hleaves, hbank, htrace⟩ :=
    State.transacted_data hn (.read a d) s.cfg.opRead a sentinelByte read_closing_own
  have hres : ((s.afterRead a d).bank s.ctx).result = some r := by rw [State.afterRead, hbank]; rfl
  rw [← State.afterRead] at hleaves hbank htrace
  exact ⟨r₀, r₁, r₂, r₃, r, hr, hleaves, by rw [hleaves.rsp, hres]; rfl, hbank, hres ▸ htrace⟩

/-- WRITE from `NC <= 253`: what it leaves (42_sram_device.md R126). -/
theorem State.afterWrite_leaves (hn : s.nc.toNat ≤ 253) (a : Addr) (v : Byte) : ∃ r₀ r₁ r₂ r₃ r,
    s.frameReplies (.write a v) [.csLow] (dataHeader s.cfg s.cfg.opWrite a ++ [v]) = [r₀, r₁, r₂, r₃, r] ∧
    s.LeavesBlock (s.afterWrite a v) v r ∧ (s.afterWrite a v).rspData = 0 ∧
    (s.afterWrite a v).bank s.ctx = { s.bank s.ctx with
      snap := s.ie, cmd := 6, addr := a, wdata := v, outb := v, inb := r, ph := [] } ∧
    (s.afterWrite a v).trace = s.trace ++ transactionEvents s.nc s.ie ([Event.cs false] ++ frameEvents s.nc s.ie
      [(s.cfg.opWrite, r₀), (s.cfg.opExt, r₁), (addrHighByte a, r₂), (addrLowByte a, r₃), (v, r)] ++ [Event.cs true])
      s.ctx none := by
  obtain ⟨r₀, r₁, r₂, r₃, r, hr, hleaves, hbank, htrace⟩ :=
    State.transacted_data hn (.write a v) s.cfg.opWrite a v write_closing_own
  have hres : ((s.afterWrite a v).bank s.ctx).result = none := by rw [State.afterWrite, hbank]; rfl
  rw [← State.afterWrite] at hleaves hbank htrace
  exact ⟨r₀, r₁, r₂, r₃, r, hr, hleaves, by rw [hleaves.rsp, hres]; rfl, hbank, hres ▸ htrace⟩

/-! ### The commands, issued alone -/

section
variable (hq : s.Quiet) (hb : s.BusUp) (hn : s.nc.toNat ≤ 253)
include hq hb hn

theorem exec_read_after : exec (.read a d) s = .next (s.afterRead a d) :=
  (exec_read_alone hq hb hn).trans
    (congrArg (fun vs => Host.Outcome.next (s.transacted (.read a d) [.csLow] vs [.t6, .csHigh])) (s.readFrame_staged a d))

theorem exec_write_after : exec (.write a d) s = .next (s.afterWrite a d) :=
  (exec_write_alone hq hb hn).trans
    (congrArg (fun vs => Host.Outcome.next (s.transacted (.write a d) [.csLow] vs [.csHigh])) (s.writeFrame_staged a d))

end

/-! ### What they do to the device -/

section
variable (hr : s.busReady = true) (hf : s.FrameFresh)
include hr hf

/-- The byte after a header is one more of a data frame. -/
theorem State.atHeader_unspoiled (i : Instr) {op : Byte} (hop : op = s.cfg.opRead ∨ op = s.cfg.opWrite) (a : Addr)
    (v : Byte) :
    (s.atHeader i op a).spoils s.cfg true s.ctx v = false :=
  (State.atHeader_inFrame i a hr hf hop).1.spoils (.inr (beginsData_dataHeader hop a v))

theorem State.atHeader_header (i : Instr) {op : Byte} (hop : op = s.cfg.opRead ∨ op = s.cfg.opWrite) (a : Addr) :
    Device.header s.cfg (s.atHeader i op a).fr = some (op, a) := by
  rw [(State.atHeader_inFrame i a hr hf hop).1.fr, dataHeader_header]

/-- READ after INIT is answered from the cell, and leaves all cells as they were (42_sram_device.md R124). -/
theorem State.afterRead_cells (hne : s.cfg.opRead ≠ s.cfg.opWrite) (hk : s.dev.known = true) (hn : s.nc.toNat ≤ 253) :
    (s.afterRead a d).rspData = s.dev.read a ∧ (∀ x, (s.afterRead a d).dev.read x = s.dev.read x) ∧
      (s.afterRead a d).dev.known = true := by
  obtain ⟨r₀, r₁, r₂, r₃, r, hreplies, -, hrsp, -, -⟩ := s.afterRead_leaves hn a d
  have hop : s.cfg.opRead = s.cfg.opRead ∨ s.cfg.opRead = s.cfg.opWrite := .inl rfl
  obtain ⟨-, hknown⟩ := State.atHeader_inFrame (.read a d) a hr hf hop
  have hread := State.atHeader_read (.read a d) a hr hf hop hk
  have hs := State.atHeader_unspoiled hr hf (.read a d) hop a sentinelByte
  have hh := State.atHeader_header hr hf (.read a d) hop a
  have hlast := State.frameReplies_data (op := s.cfg.opRead) (.read a d) a sentinelByte hr
  have hdev : (s.afterRead a d).dev = _ := State.transacted_data_dev (.read a d) a sentinelByte hr hf hop (.inr rfl)
  rw [Device.exchange_of_header hs (hknown.trans hk) hh, if_neg hne] at hdev
  rw [hreplies, Device.reply_of_header hs (hknown.trans hk) hh, if_pos rfl] at hlast
  rw [hdev, hrsp]
  exact ⟨(Option.some.inj hlast).trans (hread a), hread, hknown.trans hk⟩

/-- WRITE after INIT stores its byte, and leaves all other cells as they were (42_sram_device.md R126). -/
theorem State.afterWrite_cells (hk : s.dev.known = true) (v : Byte) :
    (s.afterWrite a v).dev.read a = v ∧ (∀ x, x ≠ a → (s.afterWrite a v).dev.read x = s.dev.read x) ∧
      (s.afterWrite a v).dev.known = true := by
  have hop : s.cfg.opWrite = s.cfg.opRead ∨ s.cfg.opWrite = s.cfg.opWrite := .inr rfl
  obtain ⟨-, hknown⟩ := State.atHeader_inFrame (.write a v) a hr hf hop
  have hread := State.atHeader_read (.write a v) a hr hf hop hk
  have hs := State.atHeader_unspoiled hr hf (.write a v) hop a v
  have hh := State.atHeader_header hr hf (.write a v) hop a
  have hdev : (s.afterWrite a v).dev = _ := State.transacted_data_dev (.write a v) a v hr hf hop (.inl rfl)
  rw [Device.exchange_of_header hs (hknown.trans hk) hh, if_pos rfl] at hdev
  rw [hdev]
  exact ⟨Device.read_write_self .., fun x hx => (Device.read_write_other _ _ hx).trans (hread x), hknown.trans hk⟩

/-- Before INIT a data frame loses every cell, and its last reply is a draw (42_sram_device.md R134). -/
theorem State.transacted_unknown (hk : s.dev.known = false) (i : Instr) {op : Byte}
    (hop : op = s.cfg.opRead ∨ op = s.cfg.opWrite) (a : Addr) (v : Byte) {closing : List Op}
    (hc : closing = [.csHigh] ∨ closing = [.t6, .csHigh]) :
    (∀ x, (s.transacted i [.csLow] (dataHeader s.cfg op a ++ [v]) closing).dev.read x =
        Config.freeCell (s.draws + 5) x) ∧
      (s.transacted i [.csLow] (dataHeader s.cfg op a ++ [v]) closing).dev.known = false ∧
      (s.frameReplies i [.csLow] (dataHeader s.cfg op a ++ [v])).getLast? = some (Config.freeByte (s.draws + 4)) := by
  obtain ⟨hin, hknown⟩ := State.atHeader_inFrame i a hr hf hop
  have hshape : Device.Shaped s.cfg (dataHeader s.cfg op a ++ [v]) := .inr (beginsData_dataHeader hop a v)
  have hlong : Device.beginsInit s.cfg ((s.atHeader i op a).fr ++ [v]) = false :=
    Device.beginsInit_of_long (by simp [hin.fr, dataHeader])
  rw [State.transacted_data_dev i a v hr hf hop hc, State.frameReplies_data i a v hr]
  exact ⟨Device.exchange_read_of_lost (.inr ⟨hknown.trans hk, hlong⟩) _, (hin.exchange hshape _).2.trans (hknown.trans hk),
    congrArg some (Device.reply_of_unknown (.inr (hknown.trans hk)) _)⟩

end

end

end Sys2Proof.Machine

namespace Sys2Proof

open Machine

/-- Settles O36: READ leaves the block, and the issuing context's bank, as its last exchange and the end of T6 wrote them. -/
theorem readCompletes : Obligations.ReadCompletes := by
  intro s a d hq hb hn
  obtain ⟨r₀, r₁, r₂, r₃, r, -, h, hrsp, hbank, htrace⟩ := s.afterRead_leaves hn a d
  exact ⟨_, r₀, r₁, r₂, r₃, r, exec_read_after hq hb hn, htrace, hrsp, h.nc, h.ie, h.tickEn, s.afterRead_csN, hbank,
    h.other, h.ctx, h.halt.trans hq.halt, h.txd, h.rxd, h.xferDone, h.xferPending, h.ready hb.ready, h.env.trans hq.env,
    h.cfg⟩

/-- Settles O38: WRITE leaves the block, and the issuing context's bank, as its last exchange wrote them. -/
theorem writeCompletes : Obligations.WriteCompletes := by
  intro s a v hq hb hn
  obtain ⟨r₀, r₁, r₂, r₃, r, -, h, hrsp, hbank, htrace⟩ := s.afterWrite_leaves hn a v
  exact ⟨_, r₀, r₁, r₂, r₃, r, exec_write_after hq hb hn, htrace, hrsp, h.nc, h.ie, h.tickEn, s.afterWrite_csN, hbank,
    h.other, h.ctx, h.halt.trans hq.halt, h.txd, h.rxd, h.xferDone, h.xferPending, h.ready hb.ready, h.env.trans hq.env,
    h.cfg⟩

/-- Settles O37: the device answers the fifth byte from the cell that the header names. -/
theorem readReturnsTheCell : Obligations.ReadReturnsTheCell := fun _ _ _ hq hb hn hf hk =>
  ⟨_, exec_read_after hq hb hn, State.afterRead_cells hb.ready hf hq.cfg hk hn⟩

/-- Settles O39: the device stores the fifth byte in the cell that the header names. -/
theorem writeStoresOneCell : Obligations.WriteStoresOneCell := fun _ _ v hq hb hn hf hk =>
  ⟨_, exec_write_after hq hb hn, State.afterWrite_cells hb.ready hf hk v⟩

/-- Settles O46: the fifth byte is one of a data frame, and of no INIT frame. -/
theorem transactionBeforeInitLosesTheCells : Obligations.TransactionBeforeInitLosesTheCells := by
  intro s a d hq hb hn hf hk i hi
  rcases List.mem_pair.1 hi with rfl | rfl
  · obtain ⟨r₀, r₁, r₂, r₃, r, hreplies, h, hrsp, hbank, -⟩ := s.afterRead_leaves hn a d
    obtain ⟨hcells, hknown, hlast⟩ := State.transacted_unknown hb.ready hf hk (.read a d) (.inl rfl) a sentinelByte
      (closing := [.t6, .csHigh]) (.inr rfl)
    obtain rfl : r = _ := by simpa [hreplies] using hlast
    exact ⟨s.afterRead a d, s.draws + 5, exec_read_after hq hb hn, h.halt.trans hq.halt, by omega, hcells, hknown,
      by rw [hbank], fun _ => ⟨by rw [hbank], hrsp⟩⟩
  · obtain ⟨r₀, r₁, r₂, r₃, r, hreplies, h, -, hbank, -⟩ := s.afterWrite_leaves hn a d
    obtain ⟨hcells, hknown, hlast⟩ := State.transacted_unknown hb.ready hf hk (.write a d) (.inr rfl) a d
      (closing := [.csHigh]) (.inl rfl)
    obtain rfl : r = _ := by simpa [hreplies] using hlast
    exact ⟨s.afterWrite a d, s.draws + 5, exec_write_after hq hb hn, h.halt.trans hq.halt, by omega, hcells, hknown,
      by rw [hbank], nofun⟩

end Sys2Proof
end

section
/-! INIT issued alone (42_sram_device.md R116 to R119, 20_memory.md R55). -/

namespace Sys2Proof.Machine

/-- The own steps of INIT before its frame (42_sram_device.md R116). -/
def initOpening : List Op := [.i1, .csHigh, .i3]

/-- What INIT leaves. -/
def State.afterInit (s : State) (a : Addr) (d : Byte) : State :=
  s.transacted (.init a d) initOpening [s.cfg.initB0, s.cfg.initB1] [.i6]

theorem initOpening_own : ∀ o ∈ initOpening, o.own = true := by decide

theorem init_closing_own : ∀ o ∈ [Op.i6], o.own = true := by decide

/-- Those steps are what `State.configured` says they leave. -/
theorem State.opened_init (s : State) (i : Instr) : s.opened i initOpening = (s.staged i).configured s.ctx := by
  simp only [State.opened, initOpening, List.foldl_cons, List.foldl_nil, effect, State.configured, State.writeCs_cfg,
    State.busConfig_cfg, State.entered_cfg]

section
variable {s : State} {a : Addr} {d : Byte}

/-- INIT issued alone, whether or not the bus is configured: I1 configures it (42_sram_device.md R118). -/
theorem exec_init_after (hq : s.Quiet) (hf : s.cfg.busFair = true) (hp : s.xferPending = false) (hn : s.nc.toNat ≤ 253) :
    exec (.init a d) s = .next (s.afterInit a d) := by
  obtain ⟨n, h⟩ := runCommand_quiet hq (.init a d) initPath 42 (by decide)
  have hrun := drive_initPath (n := n) (hq.alone (.init a d)) (by simpa using hn) (by simpa using hf) (by simpa using hp)
  rw [← State.opened_init, State.staged_cfg] at hrun
  exact h.trans hrun

/-- INIT from `NC <= 253`: what it leaves (42_sram_device.md R116, R117). -/
theorem State.afterInit_leaves (hn : s.nc.toNat ≤ 253) (a : Addr) (d : Byte) : ∃ r₀ r₁,
    s.LeavesBlock (s.afterInit a d) s.cfg.initB1 r₁ ∧ (s.afterInit a d).rspData = 0 ∧
    (s.afterInit a d).bank s.ctx = { s.bank s.ctx with
      snap := s.ie, cmd := 4, addr := a, wdata := d, outb := s.cfg.initB1, inb := r₁, ph := [] } ∧
    (s.afterInit a d).trace = s.trace ++ transactionEvents s.nc s.ie ([Event.cfg, .cs true] ++
      (if s.cfg.initCsLow then [Event.cs false] else []) ++ frameEvents s.nc s.ie [(s.cfg.initB0, r₀), (s.cfg.initB1, r₁)] ++
      [Event.cs true]) s.ctx none := by
  obtain ⟨r₀, r₁, hr⟩ : ∃ r₀ r₁, s.frameReplies (.init a d) initOpening [s.cfg.initB0, s.cfg.initB1] = [r₀, r₁] :=
    ⟨_, _, rfl⟩
  have hleaves := State.transacted_leavesBlock (i := .init a d) [s.cfg.initB0, s.cfg.initB1] initOpening_own
    init_closing_own hn (by simp)
  have hbank := State.transacted_bank (s := s) (i := .init a d) [s.cfg.initB0, s.cfg.initB1] initOpening_own
    init_closing_own fun _ => rfl
  have htrace := State.transacted_trace (s := s) (i := .init a d) [s.cfg.initB0, s.cfg.initB1] initOpening_own
    init_closing_own
  rw [hr] at hleaves hbank htrace
  rw [← State.afterInit] at hleaves hbank htrace
  have hres : ((s.afterInit a d).bank s.ctx).result = none := by rw [hbank]; rfl
  refine ⟨r₀, r₁, hleaves, by rw [hleaves.rsp, hres]; rfl, hbank, ?_⟩
  rw [htrace, hres]
  simp [initOpening, Op.ownEvents]

@[simp] theorem State.afterInit_csN : (s.afterInit a d).csN = true := by
  simp [State.afterInit, State.transacted, State.closed, effect]

theorem State.opened_init_ready (i : Instr) : (s.opened i initOpening).busReady = true := by
  simp only [State.opened_init, State.configured]
  split <;> simp

@[simp] theorem State.afterInit_busReady : (s.afterInit a d).busReady = true := by
  simp [State.afterInit, State.transacted, State.closed, effect, State.opened_init_ready]

/-! ### The device -/

/-- With the line deasserted the exchanges of a frame do not reach the device (20_memory.md R53). -/
theorem State.framed_dev_of_high (c : Ctx) : ∀ (s : State) (vs : List Byte), s.csN = true → (s.framed c vs).dev = s.dev
  | _, [], _ => rfl
  | s, v :: vs, h => by
    rw [State.framed, State.framed_dev_of_high c _ vs (by simpa using h)]
    exact if_pos h

theorem Device.initDone_read (d : Device) (p : Config) (n : Nat) (x : Addr) :
    (d.initDone p n).read x = if p.initKeepsMem then d.read x else Config.freeCell (n + 1) x := by
  unfold Device.initDone; split <;> rfl

/-- The end of an INIT (20_memory.md R55): the edge, if the line was asserted, and then the chip's known mode. -/
theorem State.endInit_dev (s : State) : ∃ n, s.draws ≤ n ∧ s.endInit.dev = (s.writeCs true).dev.initDone s.cfg n :=
  ⟨(s.writeCs true).draws, s.draws_le_writeCs true, by simp [State.endInit]⟩

/-- With `INIT_CS_LOW` the frame of INIT reaches the device, and is whole when the line rises (30_encoding.md R69). -/
theorem State.init_frame_read_of_low (hcs : s.csN = true) (hl : s.cfg.initCsLow = true) (i : Instr) (x : Addr) :
    (((s.opened i initOpening).framed s.ctx [s.cfg.initB0, s.cfg.initB1]).writeCs true).dev.read x = s.dev.read x := by
  have ho : s.opened i initOpening = (((s.staged i).entered s.ctx).busConfig.writeCs true).writeCs false := by
    simp [State.opened_init, State.configured, hl]
  have hfresh : (((s.staged i).entered s.ctx).busConfig.writeCs true).FrameFresh := .inl (by simp)
  obtain ⟨hin, -, hread⟩ := hfresh.writeCs_low s.ctx
  rw [← ho] at hin hread
  have hsel : (s.opened i initOpening).Selected := ⟨by simp [ho], s.opened_init_ready i⟩
  have hinit : Device.beginsInit (s.opened i initOpening).cfg ([] ++ [s.cfg.initB0, s.cfg.initB1]) = true := by
    simp [ho, Device.beginsInit]
  obtain ⟨hin', -⟩ := State.framed_inFrame hsel hin (.inl hinit)
  have hcells := State.framed_read hsel hin (.inl hinit) (by simp) (.inr hinit) x
  rw [State.writeCs_high_dev, if_neg (by simp [ho]), Device.csRise_of_whole hin' (by simp [Device.wholeFrame, ho]), hcells,
    hread, State.writeCs_high_dev]
  simp [hcs]

/-- Without it no byte of the frame reaches the device. -/
theorem State.init_frame_read_of_high (hcs : s.csN = true) (hl : s.cfg.initCsLow = false) (i : Instr) (x : Addr) :
    (((s.opened i initOpening).framed s.ctx [s.cfg.initB0, s.cfg.initB1]).writeCs true).dev.read x = s.dev.read x := by
  have ho : s.opened i initOpening = ((s.staged i).entered s.ctx).busConfig.writeCs true := by
    simp [State.opened_init, State.configured, hl]
  rw [State.writeCs_high_dev, if_pos (by simp [ho]), State.framed_dev_of_high _ _ _ (by simp [ho]), ho,
    State.writeCs_high_dev]
  simp [hcs]

/-- Up to the end of its frame an INIT begun with the line deasserted changes no cell. -/
theorem State.init_frame_read (hcs : s.csN = true) (i : Instr) (x : Addr) :
    (((s.opened i initOpening).framed s.ctx [s.cfg.initB0, s.cfg.initB1]).writeCs true).dev.read x = s.dev.read x := by
  by_cases hl : s.cfg.initCsLow = true
  · exact State.init_frame_read_of_low hcs hl i x
  · exact State.init_frame_read_of_high hcs (by simpa using hl) i x

/-- INIT leaves the chip in its known mode, with the cells as they were or a draw later than every one before. -/
theorem State.afterInit_device (hcs : s.csN = true) (a : Addr) (d : Byte) : (s.afterInit a d).dev.known = true ∧
    (s.cfg.initKeepsMem = true → ∀ x, (s.afterInit a d).dev.read x = s.dev.read x) ∧
    (s.cfg.initKeepsMem = false → ∃ n, s.draws < n ∧ ∀ x, (s.afterInit a d).dev.read x = Config.freeCell n x) := by
  have ho := State.opened_ownSteps (s := s) (i := .init a d) initOpening_own
  obtain ⟨n, hn, hdev⟩ := ((s.opened (.init a d) initOpening).framed s.ctx [s.cfg.initB0, s.cfg.initB1]).endInit_dev
  have hafter : (s.afterInit a d).dev = _ := (State.finish_dev ..).trans ((State.left_dev ..).trans hdev)
  have hdraws : s.draws ≤ n := by have := ho.draws; simp at this hn; omega
  have hcells := s.init_frame_read hcs (.init a d)
  simp only [State.framed_cfg, ho.cfg, State.entered_cfg, State.staged_cfg] at hafter
  refine ⟨by rw [hafter]; rfl, fun hk x => ?_, fun hk => ⟨n + 1, by omega, fun x => ?_⟩⟩
  · rw [hafter, Device.initDone_read, if_pos hk, hcells]
  · rw [hafter, Device.initDone_read, if_neg (by simp [hk])]

end

end Sys2Proof.Machine

namespace Sys2Proof

open Machine

/-- Settles O35: INIT leaves the block and the issuing context's bank as its second exchange wrote them, and the device as
I6 did. -/
theorem initCompletes : Obligations.InitCompletes := by
  intro s a d hq hf hp hcs hn
  obtain ⟨r₀, r₁, h, hrsp, hbank, htrace⟩ := s.afterInit_leaves hn a d
  obtain ⟨hknown, hkeeps, hloses⟩ := s.afterInit_device hcs a d
  exact ⟨_, r₀, r₁, exec_init_after hq hf hp hn, htrace, h.nc, h.ie, h.tickEn, s.afterInit_csN, s.afterInit_busReady, hknown,
    hkeeps, hloses, hbank, h.other, h.ctx, h.halt.trans hq.halt, h.txd, h.rxd, h.xferDone, h.xferPending, hrsp,
    h.env.trans hq.env, h.cfg⟩

/-- Settles O42: what the first INIT leaves meets the premises of the second, which leaves the same. -/
theorem initTwiceIsInitOnce : Obligations.InitTwiceIsInitOnce := by
  intro s t a d hq hf hp hcs hn h
  obtain ⟨_, _, _, h', -, hnc, hie, htick, hcs', hready, hknown, -, -, hbank, -, hctx, hhalt, -, -, -, hp', -, henv, hcfg⟩ :=
    initCompletes s a d hq hf hp hcs hn
  obtain rfl := Host.Outcome.next.inj (h.symm.trans h')
  have hq' : t.Quiet := ⟨henv, hhalt, by rw [hctx, hbank], by rw [hcfg]; exact hq.cfg⟩
  obtain ⟨u, _, _, hu, -, hnc', hie', htick', hcsu, hreadyu, hknownu, hkeeps, -, -, -, hctx', hhaltu, -⟩ :=
    initCompletes t a d hq' (by rw [hcfg]; exact hf) hp' hcs' (by rw [hnc]; exact hn)
  have htickEn : u.tickEn = t.tickEn := by
    rw [htick', hnc, htick]; split <;> rfl
  exact ⟨u, hu, hnc', hie', htickEn, hcsu.trans hcs'.symm, hreadyu.trans hready.symm, hhaltu.trans hhalt.symm, hctx',
    hknownu.trans hknown.symm, fun hk => hkeeps (by rw [hcfg]; exact hk)⟩

end Sys2Proof
end

section
/-! What the events of a transaction show (42_sram_device.md R130, R136): the line and the bus, and how many there are
of each kind. -/

namespace Sys2Proof.Machine

/-! ### Chip-select and the bus -/

@[simp] theorem enterEvents_onBus (n : Count) (i : Bool) : (enterEvents n i).filter Event.onBus = [] := by
  unfold enterEvents; split <;> rfl

@[simp] theorem leaveEvents_onBus (n : Count) (i : Bool) : (leaveEvents n i).filter Event.onBus = [] := by
  unfold leaveEvents; split
  · rfl
  · split <;> rfl

@[simp] theorem exchangeEvents_onBus (n : Count) (i : Bool) (b r : Byte) :
    (exchangeEvents n i b r).filter Event.onBus = [.tx b, .rx r] := by
  rw [exchangeEvents, List.filter_append, List.filter_append, enterEvents_onBus, leaveEvents_onBus]
  rfl

theorem frameEvents_onBus (n : Count) (i : Bool) (bytes : List (Byte × Byte)) :
    (frameEvents n i bytes).filter Event.onBus = bytes.flatMap fun p => [Event.tx p.1, .rx p.2] := by
  simp [frameEvents, List.filter_flatMap]

/-- A transaction shows there what its middle part shows. -/
theorem transactionEvents_onBus (n : Count) (i : Bool) (middle : List Event) (c : Ctx) (v : Option Byte) :
    (transactionEvents n i middle c v).filter Event.onBus = middle.filter Event.onBus := by
  simp [transactionEvents, Event.onBus]

/-- A data frame between its two chip-select writes. -/
theorem dataEvents_onBus (n : Count) (i : Bool) (bytes : List (Byte × Byte)) (c : Ctx) (v : Option Byte) :
    (transactionEvents n i ([Event.cs false] ++ frameEvents n i bytes ++ [Event.cs true]) c v).filter Event.onBus =
      [Event.cs false] ++ bytes.flatMap (fun p => [Event.tx p.1, .rx p.2]) ++ [Event.cs true] := by
  rw [transactionEvents_onBus, List.filter_append, List.filter_append, frameEvents_onBus]
  rfl

/-! ### Counting events -/

/-- How many `TX`, `IE`, `NC`, `CS` and `TICK` events there are (42_sram_device.md R136). -/
def eventCounts (es : List Event) : List Nat :=
  [(es.filterMap Event.txByte).length, (es.filterMap Event.ieValue).length, (es.filterMap Event.ncValue).length,
    (es.filterMap Event.csValue).length, (es.filterMap Event.tickValue).length]

theorem eventCounts_append (es fs : List Event) :
    eventCounts (es ++ fs) = List.zipWith (· + ·) (eventCounts es) (eventCounts fs) := by
  simp [eventCounts]

theorem eventCounts_enterEvents (n : Count) (i : Bool) :
    eventCounts (enterEvents n i) = [0, 2, 1, 0, if n = 0 then 1 else 0] := by
  unfold enterEvents; split <;> rfl

theorem eventCounts_leaveEvents {n : Count} (h : n ≠ 0) (i : Bool) :
    eventCounts (leaveEvents n i) = [0, 2, 1, 0, if n = 1 then 1 else 0] := by
  rw [leaveEvents, if_neg h]; split <;> rfl

/-- An exchange below 255: its own ENTER and LEAVE, and one byte out (42_sram_device.md R136). -/
theorem eventCounts_exchangeEvents {n : Count} (h : n ≠ 255) (i : Bool) (b r : Byte) :
    eventCounts (exchangeEvents n i b r) = [1, 4, 2, 0, if n = 0 then 2 else 0] := by
  have h0 : n + 1 ≠ 0 := fun h' => h (by bv_omega)
  have h1 : n + 1 = 1 ↔ n = 0 := by constructor <;> intro h <;> bv_omega
  rw [exchangeEvents, eventCounts_append, eventCounts_append, eventCounts_enterEvents, eventCounts_leaveEvents h0]
  simp only [h1]
  split <;> rfl

/-- A frame inside a transaction: no exchange of it is outermost. -/
theorem eventCounts_frameEvents {n : Count} (h : n.toNat ≤ 253) (i : Bool) : ∀ bytes : List (Byte × Byte),
    eventCounts (frameEvents n i bytes) = [bytes.length, 4 * bytes.length, 2 * bytes.length, 0, 0]
  | [] => rfl
  | p :: bytes => by
    obtain ⟨-, h255, h0⟩ := Count.transaction h
    rw [frameEvents, List.flatMap_cons, ← frameEvents, eventCounts_append, eventCounts_exchangeEvents h255, if_neg h0,
      eventCounts_frameEvents h i bytes]
    simp; omega

/-- The completion of a command is of none of these kinds. -/
theorem eventCounts_concat_ret (es : List Event) (c : Ctx) (v : Option Byte) :
    eventCounts (es ++ [.ret c v]) = eventCounts es := by
  simp [eventCounts, Event.txByte, Event.ieValue, Event.ncValue, Event.csValue, Event.tickValue]

/-- A transaction adds to its middle part its own ENTER and LEAVE. -/
theorem eventCounts_transactionEvents {n : Count} (h : n.toNat ≤ 253) (i : Bool) {middle : List Event} {tx ie nc cs : Nat}
    (hm : eventCounts middle = [tx, ie, nc, cs, 0]) (c : Ctx) (v : Option Byte) :
    eventCounts (transactionEvents n i middle c v) = [tx, ie + 4, nc + 2, cs, if n = 0 then 2 else 0] := by
  obtain ⟨-, -, h0⟩ := Count.transaction h
  have h1 : n + 1 = 1 ↔ n = 0 := by constructor <;> intro h <;> bv_omega
  rw [transactionEvents, eventCounts_concat_ret, eventCounts_append, eventCounts_append, eventCounts_enterEvents,
    eventCounts_leaveEvents h0, hm]
  simp only [h1, List.zipWith_cons_cons, List.zipWith_nil_left]
  split <;> simp <;> omega

/-- Five exchanges between two chip-select writes. -/
theorem eventCounts_dataEvents {n : Count} (h : n.toNat ≤ 253) (i : Bool) {bytes : List (Byte × Byte)}
    (hl : bytes.length = 5) :
    eventCounts ([Event.cs false] ++ frameEvents n i bytes ++ [Event.cs true]) = [5, 20, 10, 2, 0] := by
  rw [eventCounts_append, eventCounts_append, eventCounts_frameEvents h, hl]
  rfl

/-- Two exchanges, the bus's configuration, and two chip-select writes or three. -/
theorem eventCounts_initEvents {n : Count} (h : n.toNat ≤ 253) (i low : Bool) {bytes : List (Byte × Byte)}
    (hl : bytes.length = 2) :
    eventCounts ([Event.cfg, .cs true] ++ (if low then [Event.cs false] else []) ++ frameEvents n i bytes ++
      [Event.cs true]) = [2, 8, 4, if low then 3 else 2, 0] := by
  rw [eventCounts_append, eventCounts_append, eventCounts_append, eventCounts_frameEvents h, hl]
  cases low <;> rfl

end Sys2Proof.Machine

namespace Sys2Proof

open Machine

/-- Settles O43: of a data transaction's events only its own steps and its exchanges show on chip-select and the bus. -/
theorem chipSelectBracketsTheFrame : Obligations.ChipSelectBracketsTheFrame := by
  intro s a d hq hb hn i hi
  rcases List.mem_pair.1 hi with rfl | rfl
  · obtain ⟨t, _, _, _, _, _, ht, htrace, -⟩ := readCompletes s a d hq hb hn
    exact ⟨t, _, _, ht, htrace, rfl, dataEvents_onBus ..⟩
  · obtain ⟨t, _, _, _, _, _, ht, htrace, -⟩ := writeCompletes s a d hq hb hn
    exact ⟨t, _, _, ht, htrace, rfl, dataEvents_onBus ..⟩

/-- Settles O45: the events of each command are counted unit by unit. -/
theorem countsPerCommand : Obligations.CountsPerCommand := by
  intro s a d hq hb hcs counts gives
  have hgives : ∀ {i : Instr} {t : State} {es : List Event} {ns : List Nat}, exec i s = .next t →
      t.trace = s.trace ++ es → eventCounts es = ns → gives i ns := fun h ht hc => ⟨_, _, h, ht, hc⟩
  have hgate : ∀ {i : Instr} {t : State} {es : List Event} {v : Option Byte} {ns : List Nat}, exec i s = .next t →
      t.trace = s.trace ++ es ++ [.ret s.ctx v] → eventCounts es = ns → gives i ns := fun h ht hc =>
    hgives h (ht.trans (List.append_assoc ..)) ((eventCounts_concat_ret ..).trans hc)
  refine ⟨fun hn => ⟨?_, ?_⟩, fun hn => ?_, fun hn => ⟨?_, ?_, ?_⟩⟩
  · have h255 : s.nc ≠ 255 := fun h => by simp [h] at hn
    exact hgate (es := enterEvents s.nc s.ie) ((enterAtEveryCounterValue s a d hq).1 h255) rfl
      (eventCounts_enterEvents s.nc s.ie)
  · have h255 : s.nc ≠ 255 := fun h => by simp [h] at hn
    exact hgate ((exchangeAtEveryCounterValue s a d hq).1 hb h255) rfl (eventCounts_exchangeEvents h255 ..)
  · exact hgate (leaveAtEveryCounterValue s a d hq) (leaveEvents_append ..).symm (eventCounts_leaveEvents hn s.ie)
  · obtain ⟨t, _, _, ht, htrace, -⟩ := initCompletes s a d hq hb.fair hb.idle hcs hn
    exact hgives ht htrace (eventCounts_transactionEvents hn _ (eventCounts_initEvents hn _ _ rfl) ..)
  · obtain ⟨t, _, _, _, _, _, ht, htrace, -⟩ := readCompletes s a d hq hb hn
    exact hgives ht htrace (eventCounts_transactionEvents hn _ (eventCounts_dataEvents hn _ rfl) ..)
  · obtain ⟨t, _, _, _, _, _, ht, htrace, -⟩ := writeCompletes s a d hq hb hn
    exact hgives ht htrace (eventCounts_transactionEvents hn _ (eventCounts_dataEvents hn _ rfl) ..)

end Sys2Proof
end

section
/-! The transaction states along a command's phases (42_sram_device.md R131). -/

namespace Sys2Proof.Machine

/-- Where the state is read off the step that is next, the phases of a path run through the states of its steps, and end
idle. -/
theorem txStates_of_path {p : Config} {b : Bank} {code : CmdCode} {f : Nat → TxState}
    (h : ∀ m rest, Bank.txState p { b with cmd := code, ph := m :: rest } = f m.stage) : ∀ path : List Micro,
    path.tails.map (fun ph => Bank.txState p { b with cmd := code, ph := ph }) = path.map (fun m => f m.stage) ++ [.idle]
  | [] => rfl
  | m :: path => by
    rw [List.tails_cons, List.map_cons, h, txStates_of_path h path, List.map_cons, List.cons_append]

end Sys2Proof.Machine

namespace Sys2Proof

open Machine

/-- Settles O47: the states of the steps along the three paths, with repeats left out. -/
theorem transactionStatesInOrder : Obligations.TransactionStatesInOrder := by
  intro p b states
  have hdata : ∀ code : CmdCode, code = 5 ∨ code = 6 → ∀ path : List Micro, states code path =
      (path.map (fun m => TxState.ofDataStage m.stage) ++ [TxState.idle]).destutter (· ≠ ·) := fun code hcode path =>
    congrArg (List.destutter (· ≠ ·)) (txStates_of_path (fun _ _ => if_pos hcode) path)
  have hinit : ∀ path : List Micro, states 4 path =
      (path.map (fun m => TxState.ofInitStage p.initCsLow m.stage) ++ [TxState.idle]).destutter (· ≠ ·) := fun path =>
    congrArg (List.destutter (· ≠ ·)) (txStates_of_path (fun _ _ => rfl) path)
  refine ⟨(hdata 5 (.inl rfl) readPath).trans (by decide), (hdata 6 (.inr rfl) writePath).trans (by decide),
    (hinit initPath).trans ?_⟩
  cases p.initCsLow <;> decide

end Sys2Proof
end

section
/-! Transactions issued at `NC = 254` and `NC = 255` (42_sram_device.md R133, R135): which ENTER of the path overflows, and
what has been done by then. -/

namespace Sys2Proof.Machine

section
variable (s : State) (c : Ctx) (l : List Micro)

@[simp] theorem State.overflowed_nc : (s.overflowed c l).nc = s.nc := by cases c <;> rfl
@[simp] theorem State.overflowed_ie : (s.overflowed c l).ie = false := rfl
@[simp] theorem State.overflowed_halt : (s.overflowed c l).halt = true := rfl
@[simp] theorem State.overflowed_tickEn : (s.overflowed c l).tickEn = s.tickEn := by cases c <;> rfl
@[simp] theorem State.overflowed_csN : (s.overflowed c l).csN = s.csN := by cases c <;> rfl
@[simp] theorem State.overflowed_txd : (s.overflowed c l).txd = s.txd := by cases c <;> rfl
@[simp] theorem State.overflowed_dev : (s.overflowed c l).dev = s.dev := by cases c <;> rfl
@[simp] theorem State.overflowed_trace : (s.overflowed c l).trace = s.trace ++ [.ie false, .fatal .overflow] := rfl

end

theorem State.advance_of_ne_nil (s : State) (c : Ctx) {l : List Micro} (h : l ≠ []) : s.advance c l = s.setPh c l := by
  obtain ⟨m, rest, rfl⟩ := List.exists_cons_of_ne_nil h
  rfl

theorem State.ordinary_of_own {o : Op} (h : o.own = true) (s : State) : s.ordinary o = true := by
  cases o with
  | i1 | csHigh | csLow | i3 | i6 | t6 => rfl
  | e1 | e2 | e3 | e4 | e5 | l1 | l2 | l3 | l4 | l5 | x2 | x3 | x4 => exact nomatch h

/-- Own steps of a transaction, run one after another. -/
theorem drive_own {n : Nat} {c : Ctx} {rest : List Micro} (hrest : rest ≠ []) : ∀ {ms : List Micro} {s : State}, s.Alone c →
    (∀ o ∈ ms.map Micro.op, o.own = true) →
    drive (n + ms.length) c (s.setPh c (ms ++ rest)) = drive n c (((ms.map Micro.op).foldl (effect c) s).setPh c rest)
  | [], _, _, _ => rfl
  | m :: ms, s, h, hown => by
    obtain ⟨hm, hms⟩ := List.forall_mem_cons.1 hown
    rw [List.cons_append, List.length_cons, ← Nat.add_assoc, drive_effect h (State.ordinary_of_own hm s),
      State.advance_of_ne_nil _ _ (List.append_ne_nil_of_right_ne_nil ms hrest), drive_own hrest (h.effect m.op) hms]
    rfl

theorem State.opened_init_csN (s : State) (i : Instr) : (s.opened i initOpening).csN = !s.cfg.initCsLow := by
  cases h : s.cfg.initCsLow <;> simp [State.opened_init, State.configured, h]

/-- Asserting the line changes no cell. -/
theorem State.writeCs_low_mem (s : State) : (s.writeCs false).dev.mem = s.dev.mem := by
  rw [State.writeCs_low_dev]; split <;> rfl

section
variable {s : State} {i : Instr} (hq : s.Quiet)
include hq

/-- At 255 a command that begins with an ENTER halts there (40_critical_section.md R83). -/
theorem exec_overflow_at_once {rest : List Micro} (hp : commandPath i = enterSteps 0 ++ rest) (hn : s.nc = 255) :
    exec i s = .next ((s.staged i).overflowed s.ctx ((enterSteps 0 ++ rest).drop 2)) :=
  exec_of_drive hq hp 3 (by simp [enterSteps]; omega) fun _ => by
    rw [List.append_nil, drive_overflow (hq.alone i) (by simpa using hn)]

/-- At 254 a transaction runs its own ENTER and its opening, and halts in the ENTER of its first exchange
(42_sram_device.md R133). -/
theorem exec_overflow_inside {ms : List Micro} {k : Nat} {rest : List Micro}
    (hp : commandPath i = enterSteps 0 ++ (ms ++ (enterSteps k ++ rest))) (hown : ∀ o ∈ ms.map Micro.op, o.own = true)
    (hn : s.nc = 254) :
    exec i s = .next ((s.opened i (ms.map Micro.op)).overflowed s.ctx ((enterSteps k ++ rest).drop 2)) := by
  have ho := State.opened_ownSteps (s := s) (i := i) hown
  have halone : (s.opened i (ms.map Micro.op)).Alone s.ctx :=
    ⟨by simp [ho.env, hq.env], by simp [ho.halt, hq.halt], by simp [ho.ctx]⟩
  have hnc : (s.opened i (ms.map Micro.op)).nc = 255 := by simp [ho.nc, hn]
  have hrest : enterSteps k ++ rest ≠ [] := by simp [enterSteps]
  refine exec_of_drive hq hp (3 + ms.length + 5) (by simp [enterSteps]; omega) fun n => ?_
  rw [List.append_nil, ← Nat.add_assoc, ← Nat.add_assoc, drive_enter (hq.alone i) (by simp [hn]),
    State.advance_of_ne_nil _ _ (List.append_ne_nil_of_right_ne_nil ms hrest), drive_own hrest (hq.alone i).entered hown]
  exact drive_overflow halone hnc

/-- What is then left of the block: chip-select and the device as the opening left them, and nothing sent. -/
theorem exec_halts_inside {ms : List Micro} {k : Nat} {rest : List Micro}
    (hp : commandPath i = enterSteps 0 ++ (ms ++ (enterSteps k ++ rest))) (hown : ∀ o ∈ ms.map Micro.op, o.own = true)
    (hn : s.nc = 254) : ∃ t, exec i s = .next t ∧ t.halt = true ∧ t.nc = 255 ∧ t.ie = false ∧
      t.csN = (s.opened i (ms.map Micro.op)).csN ∧ t.txd = s.txd ∧ t.dev = (s.opened i (ms.map Micro.op)).dev ∧
      t.tickEn = s.tickEn ∧ t.trace = s.trace ++ ([Event.ie false, .nc 255, .ie s.ie] ++
        (ms.map Micro.op).flatMap (Op.ownEvents s.cfg) ++ [Event.ie false, .fatal .overflow]) := by
  have ho := State.opened_ownSteps (s := s) (i := i) hown
  refine ⟨_, exec_overflow_inside hq hp hown hn, rfl, ?_, rfl, by simp, ?_, by simp, ?_, ?_⟩
  · simp [ho.nc, hn]
  · simp [ho.txd]
  · simp [ho.tickEn, hn]
  · simp [ho.trace, hn, enterEvents]

/-- At 255 nothing is done but the disabling of interrupts. -/
theorem exec_halts_at_once {rest : List Micro} (hp : commandPath i = enterSteps 0 ++ rest) (hn : s.nc = 255) :
    ∃ t, exec i s = .next t ∧ t.halt = true ∧ t.nc = 255 ∧ t.ie = false ∧ t.csN = s.csN ∧ t.txd = s.txd ∧ t.dev = s.dev ∧
      t.tickEn = s.tickEn ∧ t.trace = s.trace ++ [.ie false, .fatal .overflow] :=
  ⟨_, exec_overflow_at_once hq hp hn, rfl, by simpa using hn, rfl, by simp, by simp, by simp, by simp, by simp⟩

end

end Sys2Proof.Machine

namespace Sys2Proof

open Machine

/-- Settles O40: at 254 the first ENTER succeeds and the second does not, at 255 the first does not. -/
theorem transactionsNeedHeadRoom : Obligations.TransactionsNeedHeadRoom := by
  refine fun s a d i hq => ⟨fun hn hi => ?_, fun hn hi => ?_, fun hn hi => ?_⟩
  · obtain ⟨rest, hp⟩ : ∃ rest, commandPath i = enterSteps 0 ++ ([⟨1, .csLow⟩] ++ (enterSteps 2 ++ rest)) := by
      rcases hi with rfl | rfl <;> exact ⟨_, rfl⟩
    obtain ⟨t, ht, hhalt, hnc, hie, hcs, htxd, hdev, htick, htrace⟩ := exec_halts_inside hq hp (by decide) hn
    exact ⟨t, ht, hhalt, hnc, hie, hcs.trans (State.writeCs_csN ..), htxd,
      by rw [hdev]; exact (State.writeCs_low_mem _).trans (by simp), htick, htrace⟩
  · obtain ⟨rest, hp⟩ : ∃ rest, commandPath i =
        enterSteps 0 ++ ([⟨1, .i1⟩, ⟨2, .csHigh⟩, ⟨3, .i3⟩] ++ (enterSteps 4 ++ rest)) := by
      rw [hi]; exact ⟨_, rfl⟩
    obtain ⟨t, ht, hhalt, hnc, hie, hcs, htxd, -, htick, htrace⟩ := exec_halts_inside hq hp (by decide) hn
    exact ⟨t, ht, hhalt, hnc, hie, hcs.trans (s.opened_init_csN i), htxd, htick, by rw [htrace]; simp [Op.ownEvents]⟩
  · obtain ⟨rest, hp⟩ : ∃ rest, commandPath i = enterSteps 0 ++ rest := by
      rcases hi with rfl | rfl | rfl <;> exact ⟨_, rfl⟩
    exact exec_halts_at_once hq hp hn

end Sys2Proof
end

section
/-! A byte that a WRITE has stored, through the commands that follow (42_sram_device.md R128, 20_memory.md R56). -/

namespace Sys2Proof.Machine

/-- At rest on a configured idle bus, with the line deasserted and the chip in its known mode, and `v` in the cell at `a`. -/
structure State.Stores (s : State) (a : Addr) (v : Byte) : Prop where
  quiet : s.Quiet
  busUp : s.BusUp
  csN : s.csN = true
  known : s.dev.known = true
  cell : s.dev.read a = v

/-- Is the command neither an INIT nor a WRITE to `a`? -/
def Spares (a : Addr) (i : Instr) : Prop := (∀ x y, i ≠ .init x y) ∧ ∀ y, i ≠ .write a y

section
variable {s t u w : State} {a : Addr} {v : Byte} {i : Instr}

/-- A command that leaves the bus, the line and the device as they were keeps the byte. -/
theorem State.Stores.finish (h : s.Stores a v) {c : Ctx} (hw : w.Alone c) (hcfg : w.cfg = s.cfg)
    (hready : w.busReady = s.busReady) (hidle : w.xferPending = false) (hcs : w.csN = s.csN) (hdev : w.dev = s.dev) : (w.finish c).Stores a v where
  quiet := hw.finish_quiet (by rw [hcfg]; exact h.quiet.cfg)
  busUp := ⟨by simp [hcfg, h.busUp.fair], by simp [hready, h.busUp.ready], by simp [hidle]⟩
  csN := by simp [hcs, h.csN]
  known := by simp [hdev, h.known]
  cell := by simp [hdev, h.cell]

/-- A transaction leaves the block at rest and the bus idle. -/
theorem State.Stores.of_leavesBlock {b r : Byte} (hq : s.Quiet) (hb : s.BusUp) (ht : s.LeavesBlock t b r)
    (hph : (t.bank s.ctx).ph = []) (hcs : t.csN = true) (hk : t.dev.known = true) (hcell : t.dev.read a = v) :
    t.Stores a v where
  quiet := ⟨ht.env.trans hq.env, ht.halt.trans hq.halt, by rw [ht.ctx, hph], by rw [ht.cfg]; exact hq.cfg⟩
  busUp := ⟨by rw [ht.cfg]; exact hb.fair, ht.ready hb.ready, ht.xferPending⟩
  csN := hcs
  known := hk
  cell := hcell

theorem State.afterWrite_stores (hq : s.Quiet) (hb : s.BusUp) (hn : s.nc.toNat ≤ 253) (hf : s.FrameFresh)
    (hk : s.dev.known = true) {b : Addr} {d : Byte} (hcell : (s.afterWrite b d).dev.read a = v) :
    (s.afterWrite b d).Stores a v := by
  obtain ⟨_, _, _, _, r, -, hleaves, -, hbank, -⟩ := s.afterWrite_leaves hn b d
  obtain ⟨-, -, hknown⟩ := State.afterWrite_cells (a := b) hb.ready hf hk d
  exact .of_leavesBlock hq hb hleaves (by rw [hbank]) s.afterWrite_csN hknown hcell

theorem State.afterRead_stores (h : s.Stores a v) (hn : s.nc.toNat ≤ 253) (b : Addr) (d : Byte) :
    (s.afterRead b d).Stores a v := by
  obtain ⟨_, _, _, _, r, -, hleaves, -, hbank, -⟩ := s.afterRead_leaves hn b d
  obtain ⟨-, hcells, hknown⟩ := State.afterRead_cells (a := b) (d := d) h.busUp.ready (.inl h.csN) h.quiet.cfg h.known hn
  exact .of_leavesBlock h.quiet h.busUp hleaves (by rw [hbank]) s.afterRead_csN hknown ((hcells a).trans h.cell)

theorem State.Alone.underflowed {c : Ctx} (h : s.Alone c) : (s.underflowed c).Alone c :=
  ⟨by simp [State.underflowed, h.env], by simp [State.underflowed, h.halt], by simp [State.underflowed, h.ctx]⟩

/-- `NC` leaves room for a transaction, or is one of the two values that do not. -/
theorem Count.room_cases (n : Count) : n.toNat ≤ 253 ∨ n = 254 ∨ n = 255 := by
  bv_omega

/-- Issued without room a READ or a WRITE halts. -/
theorem exec_data_halts (hq : s.Quiet) (hn : s.nc = 254 ∨ s.nc = 255) {b : Addr} {d : Byte}
    (hi : i = .read b d ∨ i = .write b d) (h : exec i s = .next t) : t.halt = true := by
  rcases hn with hn | hn
  · obtain ⟨rest, hp⟩ : ∃ rest, commandPath i = enterSteps 0 ++ ([⟨1, .csLow⟩] ++ (enterSteps 2 ++ rest)) := by
      rcases hi with rfl | rfl <;> exact ⟨_, rfl⟩
    cases (exec_overflow_inside hq hp (by decide) hn).symm.trans h
    rfl
  · obtain ⟨rest, hp⟩ : ∃ rest, commandPath i = enterSteps 0 ++ rest := by
      rcases hi with rfl | rfl <;> exact ⟨_, rfl⟩
    cases (exec_overflow_at_once hq hp hn).symm.trans h
    rfl

/-- Every other command keeps the byte, or halts. -/
theorem exec_keeps_byte (h : s.Stores a v) (hi : Spares a i) (he : exec i s = .next t) : t.halt = true ∨ t.Stores a v := by
  have hq := h.quiet
  cases i with
  | enter b d =>
    by_cases hn : s.nc = 255
    · cases (exec_enter_overflow hq hn).symm.trans he
      exact .inl rfl
    · cases (exec_enter_alone hq hn).symm.trans he
      exact .inr (h.finish (hq.alone _).entered (by simp) (by simp) (by simp [h.busUp.idle]) (by simp) (by simp))
  | leave b d =>
    by_cases hn : s.nc = 0
    · cases (exec_leave_underflow hq hn).symm.trans he
      exact .inr (h.finish (hq.alone _).underflowed (by simp [State.underflowed]) (by simp [State.underflowed])
        (by simp [State.underflowed, h.busUp.idle]) (by simp [State.underflowed]) (by simp [State.underflowed]))
    · cases (exec_leave_alone hq hn).symm.trans he
      exact .inr (h.finish (hq.alone _).left (by simp) (by simp) (by simp [h.busUp.idle]) (by simp) (by simp))
  | exchange b d =>
    by_cases hn : s.nc = 255
    · cases (exec_exchange_overflow hq hn).symm.trans he
      exact .inl rfl
    · cases (exec_exchange_alone hq h.busUp hn).symm.trans he
      exact .inr (h.finish ((hq.alone _).exchanged d) (by simp) (by simp) (by simp) (by simp)
        (by simp [State.exchangeDevice, h.csN]))
  | init b d => exact absurd rfl (hi.1 b d)
  | read b d =>
    rcases Count.room_cases s.nc with hn | hn
    · cases (exec_read_after hq h.busUp hn).symm.trans he
      exact .inr (State.afterRead_stores h hn b d)
    · exact .inl (exec_data_halts hq hn (.inl rfl) he)
  | write b d =>
    rcases Count.room_cases s.nc with hn | hn
    · cases (exec_write_after hq h.busUp hn).symm.trans he
      have hne : a ≠ b := fun hab => hi.2 d (by rw [hab])
      obtain ⟨-, hother, -⟩ := State.afterWrite_cells (a := b) h.busUp.ready (.inl h.csN) h.known d
      exact .inr (State.afterWrite_stores hq h.busUp hn (.inl h.csN) h.known ((hother a hne).trans h.cell))
    · exact .inl (exec_data_halts hq hn (.inr rfl) he)

/-- A halted block runs no further command. -/
theorem runAll_of_halt {is : List Instr} (hs : s.halt = true) (h : runAll is s = .next u) : u.halt = true := by
  cases is with
  | nil => cases h; exact hs
  | cons i is =>
    obtain ⟨t, ht, -⟩ := Result.andThen_eq_next h
    simp [exec_eq_runCommand, runCommand, accept_of_halt hs, Result.andThen] at ht

/-- A sequence of such commands that does not halt keeps the byte. -/
theorem runAll_keeps_byte : ∀ {is : List Instr} {s : State}, s.Stores a v → (∀ i ∈ is, Spares a i) → runAll is s = .next u →
    u.halt = false → u.Stores a v
  | [], _, hs, _, h, _ => by cases h; exact hs
  | i :: is, s, hs, hi, h, hu => by
    obtain ⟨hi, his⟩ := List.forall_mem_cons.1 hi
    obtain ⟨t, ht, hrest⟩ := Result.andThen_eq_next h
    rcases exec_keeps_byte hs hi ht with hhalt | hkeep
    · exact absurd (runAll_of_halt hhalt hrest) (by simp [hu])
    · exact runAll_keeps_byte hkeep his hrest hu

end

end Sys2Proof.Machine

namespace Sys2Proof

open Machine

/-- Settles O41: the WRITE stores the byte, the commands between keep it, and the READ answers from the cell. -/
theorem writeThenReadReturnsTheByte : Obligations.WriteThenReadReturnsTheByte := by
  intro s t u a v d between hq hb hf hk hn ht hbetween hu hhalt hun
  obtain rfl := Host.Outcome.next.inj ((exec_write_after hq hb hn).symm.trans ht)
  obtain ⟨hcell, -, -⟩ := State.afterWrite_cells (a := a) hb.ready hf hk v
  have hstores : u.Stores a v := runAll_keeps_byte (State.afterWrite_stores hq hb hn hf hk hcell) hbetween hu hhalt
  obtain ⟨hrsp, -, -⟩ := State.afterRead_cells (a := a) (d := d) hstores.busUp.ready (.inl hstores.csN) hstores.quiet.cfg
    hstores.known hun
  exact ⟨_, exec_read_after hstores.quiet hstores.busUp hun, hrsp.trans hstores.cell⟩

end Sys2Proof
end

section
/-! The switches and their writers, handler entry and handler return (60_exceptions.md R147 to R153): a handler is entered
through the open gate only, and beyond the switches it touches its own phase and port alone. -/

namespace Sys2Proof.Machine

@[simp] theorem State.raise_ctx (s : State) (k : ErrorKind) : (s.raise k).ctx = s.ctx := by cases k <;> rfl
@[simp] theorem State.raise_ie (s : State) (k : ErrorKind) : (s.raise k).ie = s.ie := by cases k <;> rfl
@[simp] theorem State.raise_tickEn (s : State) (k : ErrorKind) : (s.raise k).tickEn = s.tickEn := by cases k <;> rfl
@[simp] theorem State.takeWord_ctx (s : State) : s.takeWord.ctx = s.ctx := State.setBank_ctx ..
@[simp] theorem State.takeWord_ie (s : State) : s.takeWord.ie = s.ie := State.setBank_ie ..
@[simp] theorem State.takeWord_tickEn (s : State) : s.takeWord.tickEn = s.tickEn := State.setBank_tickEn ..

/-! ### The switches, and who writes them (60_exceptions.md R149) -/

/-- Of the micro-steps only the gate's disable and its restore write `IE` (40_critical_section.md R80, R86). -/
theorem runOp_ie_ne {c : Ctx} {o : Op} {rest : List Micro} {s t : State} (h : runOp c o rest s = .next t) (hn : t.ie ≠ s.ie) :
    ((o = .e2 ∨ o = .l2) ∧ t.ie = false) ∨ ((o = .e5 ∨ o = .l5) ∧ t.ie = (s.bank c).snap) := by
  obtain ⟨-, rfl⟩ | ⟨-, -, rfl⟩ | ⟨-, -, rfl⟩ | ⟨-, -, rfl⟩ := runOp_eq_next h
  case inl =>
    rw [State.advance_ie, effect_ie] at hn ⊢
    split_ifs at hn ⊢ with hoff hback
    · exact .inl ⟨hoff, rfl⟩
    · exact .inr ⟨hback, rfl⟩
    · exact absurd rfl hn
  all_goals simp at hn

/-- Of the micro-steps only an outermost E4 and an outermost L4 write `TICK_EN` (40_critical_section.md R80, R86). -/
theorem runOp_tickEn_ne {c : Ctx} {o : Op} {rest : List Micro} {s t : State} (h : runOp c o rest s = .next t)
    (hn : t.tickEn ≠ s.tickEn) : (o = .e4 ∧ s.nc = 1 ∧ t.tickEn = false) ∨ (o = .l4 ∧ s.nc = 0 ∧ t.tickEn = true) := by
  obtain ⟨-, rfl⟩ | ⟨-, -, rfl⟩ | ⟨-, -, rfl⟩ | ⟨-, -, rfl⟩ := runOp_eq_next h
  case inl =>
    rw [State.advance_tickEn, effect_tickEn] at hn ⊢
    split_ifs at hn ⊢ with hoff hon
    · exact .inl ⟨hoff.1, hoff.2, rfl⟩
    · exact .inr ⟨hon.1, hon.2, rfl⟩
    · exact absurd rfl hn
  all_goals simp at hn

/-- No micro-step changes the running context (60_exceptions.md R147). -/
theorem runOp_ctx {c : Ctx} {o : Op} {rest : List Micro} {s t : State} (h : runOp c o rest s = .next t) : t.ctx = s.ctx := by
  obtain ⟨-, rfl⟩ | ⟨-, -, rfl⟩ | ⟨-, -, rfl⟩ | ⟨-, -, rfl⟩ := runOp_eq_next h <;> simp

/-- Acceptance writes the bank of the running context only (30_encoding.md R61). -/
theorem accept_switches {i : Instr} {path : List Micro} {s t : State} (h : accept i path s = .next t) :
    t.ctx = s.ctx ∧ t.ie = s.ie ∧ t.tickEn = s.tickEn := by
  obtain ⟨-, -, rfl⟩ := accept_eq_next h
  simp

/-- May the core enter a handler now: the five conditions, one by one (60_exceptions.md R147, R152, R153). -/
theorem State.mayInterrupt_iff {s : State} {tick : Bool} {cmds : List CmdWord} : s.mayInterrupt tick cmds = true ↔
    s.halt = false ∧ s.ctx = .main ∧ s.ie = true ∧ (tick = true → s.tickEn = true) ∧
      (cmds = [] ∨ cmds ∈ s.cfg.handlers) := by
  cases tick <;> simp [State.mayInterrupt, and_assoc]

/-- Whatever changes `IE` (60_exceptions.md R149). -/
theorem Did.of_ie_ne {who : Option Move} {s t : State} (hd : Did who s t) (hn : t.ie ≠ s.ie) :
    (((s.bank s.ctx).next = some .e2 ∨ (s.bank s.ctx).next = some .l2) ∧ t.ie = false) ∨
      (((s.bank s.ctx).next = some .e5 ∨ (s.bank s.ctx).next = some .l5) ∧ t.ie = (s.bank s.ctx).snap) ∨
      (s.ctx = .main ∧ t.ctx = .irq ∧ t.ie = false) ∨ (s.ctx = .irq ∧ t.ctx = .main ∧ t.ie = true) ∨
      who = some (.ieWrite t.ie) ∨ who = some .reset := by
  cases hd with
  | op m rest t by_ ph halt run =>
    rw [Bank.next_of_cons ph]
    simp only [Option.some.injEq]
    exact (runOp_ie_ne run hn).imp_right .inl
  | accepted i w t by_ idle offer word run =>
    obtain ⟨-, hie, -⟩ := accept_switches run
    exact absurd (hie.trans s.takeWord_ie) hn
  | returned by_ ctx halt idle port => exact .inr (.inr (.inr (.inl ⟨ctx, rfl, rfl⟩)))
  | entered tick cmds by_ may => exact .inr (.inr (.inl ⟨ctx_of_mayInterrupt may, rfl, rfl⟩))
  | ieWritten v by_ halt ctx idle => exact .inr (.inr (.inr (.inr (.inl by_))))
  | wasReset by_ => exact .inr (.inr (.inr (.inr (.inr by_))))
  | nothing | completed | configured | tickWritten => exact absurd rfl hn

/-- Whatever changes `TICK_EN` (60_exceptions.md R149). -/
theorem Did.of_tickEn_ne {who : Option Move} {s t : State} (hd : Did who s t) (hn : t.tickEn ≠ s.tickEn) :
    ((s.bank s.ctx).next = some .e4 ∧ s.nc = 1 ∧ t.tickEn = false) ∨
      ((s.bank s.ctx).next = some .l4 ∧ s.nc = 0 ∧ t.tickEn = true) ∨
      who = some (.tickWrite t.tickEn) ∨ who = some .reset := by
  cases hd with
  | op m rest t by_ ph halt run =>
    rw [Bank.next_of_cons ph]
    simp only [Option.some.injEq]
    exact (runOp_tickEn_ne run hn).imp_right .inl
  | accepted i w t by_ idle offer word run =>
    obtain ⟨-, -, htick⟩ := accept_switches run
    exact absurd (htick.trans s.takeWord_tickEn) hn
  | tickWritten v by_ => exact .inr (.inr (.inl by_))
  | wasReset by_ => exact .inr (.inr (.inr by_))
  | nothing | returned | entered | completed | configured | ieWritten => exact absurd rfl hn

/-! ### Entry and return -/

/-- Of all that a turn can do, only the entry of a handler takes `main` to `irq` (60_exceptions.md R147, R150). -/
theorem Did.of_entry {who : Option Move} {s t : State} (hd : Did who s t) (hs : s.ctx = .main) (ht : t.ctx = .irq) :
    ∃ tick cmds, who = some (.intr tick cmds) ∧ s.mayInterrupt tick cmds = true := by
  have hn : t.ctx ≠ s.ctx := by simp [hs, ht]
  cases hd with
  | entered tick cmds by_ may => exact ⟨tick, cmds, by_, may⟩
  | op m rest t by_ ph halt run => exact absurd (runOp_ctx run) hn
  | accepted i w t by_ idle offer word run =>
    obtain ⟨hctx, -⟩ := accept_switches run
    exact absurd (hctx.trans s.takeWord_ctx) hn
  | returned | wasReset => exact nomatch ht
  | nothing | completed | configured | ieWritten | tickWritten => exact absurd rfl hn

/-- An interrupt's turn: it enters its handler if it may, and else passes (60_exceptions.md R147). -/
theorem turn_of_intr {s : State} {tick : Bool} {cmds : List CmdWord} {rest : List Move} (he : s.env = .intr tick cmds :: rest) :
    turn s = .next (if s.mayInterrupt tick cmds then State.enterHandler { s with env := rest } cmds
      else { s with env := rest }) := by
  rw [turn, he]
  rfl

/-- The turn of a running handler that has no command in progress and no word left (60_exceptions.md R151). -/
theorem seqTurn_of_finished {s : State} (hc : s.ctx = .irq) (hi : s.irq.ph = []) (hp : s.irq.port = []) :
    seqTurn s = .next s.leaveHandler := by
  simp [seqTurn, State.bank, hc, hi, hp]

/-- The turn of an idle context, named by the environment's list or with the list used up. -/
theorem turn_of_idle {s : State} (he : s.env = [] ∨ s.env.head? = some .seq) (hh : s.halt = false)
    (hi : (s.bank s.ctx).ph = []) : turn s = seqTurn { s with env := s.env.tail } := by
  cases henv : s.env with
  | nil =>
    have hw : s.waiting = false := by simp [State.waiting, hi]
    have hs : ({ s with env := [] } : State) = s := by rw [← henv]
    rw [List.tail_nil, hs]
    simp [turn, henv, hh, hw]
  | cons m rest =>
    obtain rfl : m = .seq := by simpa [henv] using he
    exact turn_of_seq henv hh

end Sys2Proof.Machine

namespace Sys2Proof

open Machine

/-- Settles O13: each thing a turn can do is a writer of the list, or leaves the switch as it was. -/
theorem switchesHaveTheirWriters : Obligations.SwitchesHaveTheirWriters := fun _ _ h =>
  ⟨fun hn => (turn_did h).of_ie_ne hn, fun hn => (turn_did h).of_tickEn_ne hn⟩

/-- Settles O20: entry is the one way from `main` to `irq`, and it is closed to a running handler. -/
theorem handlersEnterOnlyThroughTheOpenGate : Obligations.HandlersEnterOnlyThroughTheOpenGate := by
  refine ⟨fun s t h hs ht => ?_, fun s tick cmds rest hc he => ?_⟩
  · obtain ⟨tick, cmds, hwho, hmay⟩ := (turn_did h).of_entry hs ht
    obtain ⟨hhalt, -, hie, htick, hcmds⟩ := State.mayInterrupt_iff.mp hmay
    exact ⟨hhalt, hie, tick, cmds, hwho, htick, hcmds⟩
  · have hmay : ¬ s.mayInterrupt tick cmds = true := fun hmay => by simp [ctx_of_mayInterrupt hmay] at hc
    rw [turn_of_intr he, if_neg hmay]

/-- Settles O21: the five conditions open the gate, and entry is what stands in the equation. -/
theorem handlerEntryIsPrecise : Obligations.HandlerEntryIsPrecise := by
  intro s tick cmds rest he hc hh hie htick hcmds
  rw [turn_of_intr he, if_pos (State.mayInterrupt_iff.mpr ⟨hh, hc, hie, htick, hcmds⟩)]
  rfl

/-- Settles O22: the turn is the handler's own, and with nothing left to run it is the return. -/
theorem handlerReturnRestoresOnlyIe : Obligations.HandlerReturnRestoresOnlyIe := by
  intro s he hh hc hi hp
  rw [turn_of_idle he hh (by simpa [State.bank, hc] using hi)]
  exact seqTurn_of_finished hc hi hp

/-- Settles O24: the return undoes the entry, but for the handler's bank and the trace. -/
theorem emptyHandlerIsInvisible : Obligations.EmptyHandlerIsInvisible := by
  intro s tick rest he hc hh hie htick
  have hentry := handlerEntryIsPrecise s tick [] (.seq :: rest) he hc hh hie htick (.inl rfl)
  have hreturn := handlerReturnRestoresOnlyIe (State.enterHandler { s with env := .seq :: rest } []) (.inr rfl) hh rfl rfl rfl
  exact ⟨_, hentry, hreturn.trans (by simp [State.enterHandler, hc, hie])⟩

end Sys2Proof
end


section
/-! Reset and the idle block (70_reset_and_hazards.md R170 to R172), and the end of every command (R193): each turn of an
activation that is not settled uses up some of its bounded work, or halts the block. -/

namespace Sys2Proof.Machine

/-! ### Reset, and nothing to do -/

theorem turn_of_reset {s : State} {rest : List Move} (he : s.env = .reset :: rest) :
    turn s = .next (State.resetNow { s with env := rest }) := by
  rw [turn, he]
  rfl

theorem fetch_of_no_word {s : State} (hp : (s.bank s.ctx).port = []) : s.fetch = none := by
  simp [State.fetch, hp]

theorem seqTurn_of_idle_main {s : State} (hc : s.ctx = .main) (hi : s.main.ph = []) (hp : s.main.port = []) :
    seqTurn s = .next s := by
  simp [seqTurn, State.bank, hc, hi, hp]

/-! ### The work that an operation leaves -/

theorem commandPath_length_le (i : Instr) : (commandPath i).length ≤ 78 := by
  cases i <;> simp [commandPath, enterPath, leavePath, exchangePath, initPath, readPath, writePath, enterSteps, leaveSteps,
    exchangeSteps]

theorem afterUnderflow_length_le (l : List Micro) : (afterUnderflow l).length ≤ l.length := by
  cases l with
  | nil => exact le_rfl
  | cons m rest =>
    simp only [afterUnderflow]
    split <;> simp

/-- Going on along the path outweighs the transfer that a micro-step may start. -/
theorem Wrote.work_advance_lt {c : Ctx} {o : Op} {s u : State} {l : List Micro} (hw : Wrote c o s u) (he : u.env = s.env)
    (hl : l.length < (s.bank c).ph.length) : (u.advance c l).work < s.work := by
  have hpend : (if u.xferPending then 1 else 0) ≤ 1 := by split <;> simp
  have hport := hw.port
  cases c with
  | main =>
    have hirq : u.irq = s.irq := hw.other .irq (by decide)
    have hl : l.length < s.main.ph.length := hl
    simp only [State.work, State.advance_env, State.advance_main, State.advance_main_irq, State.advance_ctx,
      State.advance_xferPending, he, hirq, hw.ctx]
    omega
  | irq =>
    have hmain : u.main = s.main := hw.other .main (by decide)
    have hport : u.irq.port = s.irq.port := hport
    have hl : l.length < s.irq.ph.length := hl
    simp only [State.work, State.advance_env, State.advance_irq, State.advance_irq_main, State.advance_ctx,
      State.advance_xferPending, he, hmain, hport, hw.ctx]
    omega

/-- A micro-step uses up work, but for the one that halts and the one that waits. -/
theorem runOp_work {c : Ctx} {m : Micro} {rest : List Micro} {s t : State} (hp : (s.bank c).ph = m :: rest)
    (h : runOp c m.op rest s = .next t) :
    t.work < s.work ∨ t.work = s.work ∧ (t.halt = true ∨ m.op = .x3 ∧ s.xferDone = false) := by
  obtain ⟨-, rfl⟩ | ⟨-, -, rfl⟩ | ⟨ho, -, rfl⟩ | ⟨ho, hd, rfl⟩ := runOp_eq_next h
  · exact .inl ((effect_wrote c s m.op).work_advance_lt (effect_env ..) (by simp [hp]))
  · exact .inr ⟨rfl, .inl rfl⟩
  · have hlen := afterUnderflow_length_le rest
    exact .inl ((underflow_wrote c s).work_advance_lt (State.raise_env ..) (by simp [hp]; omega))
  · exact .inr ⟨rfl, .inr ⟨ho, hd⟩⟩

/-- A word of a handler outweighs the path of its command. -/
theorem accept_takeWord_work {i : Instr} {w : CmdWord} {ws : List CmdWord} {s t : State} (hc : s.ctx = .irq)
    (hi : s.irq.ph = []) (hp : s.irq.port = w :: ws) (h : accept i (commandPath i) s.takeWord = .next t) :
    t.work < s.work := by
  have hlen := commandPath_length_le i
  obtain ⟨-, -, rfl⟩ := accept_eq_next h
  simp [State.work, State.takeWord, State.setBank, State.bank, hc, hi, hp]
  omega

theorem leaveHandler_work {s : State} (hc : s.ctx = .irq) : s.leaveHandler.work < s.work := by
  cases hx : s.xferPending <;> simp [State.work, hc, hx]

theorem completeTransfer_work {s : State} (hp : s.xferPending = true) : s.completeTransfer.work < s.work := by
  cases hc : s.ctx <;> simp [State.work, hc, hp]

theorem enterHandler_work (s : State) (cmds : List CmdWord) (tick : Bool) :
    (s.enterHandler cmds).work < s.work + (Move.intr tick cmds).work := by
  cases hx : s.xferPending <;> simp [State.work, Move.work, hx] <;> omega

theorem resetNow_work_le (s : State) : s.resetNow.work ≤ s.work := by
  have h : s.resetNow.work = (s.env.map Move.work).sum := rfl
  rw [h, State.work]
  omega

theorem Move.work_pos (m : Move) : 0 < m.work := by
  cases m <;> simp [Move.work]

/-! ### The work that a turn leaves -/

/-- The running context's turn, unless it is idle mainline code: it uses up work, or halts, or waits. -/
theorem seqTurn_work {s t : State} (hr : s.ctx = .main → s.main.ph ≠ []) (h : seqTurn s = .next t) :
    t.work < s.work ∨ t.work = s.work ∧ (t.halt = true ∨ s.waiting = true) := by
  cases hp : (s.bank s.ctx).ph with
  | cons m rest =>
    rw [seqTurn_of_path hp] at h
    refine (runOp_work hp h).imp_right (And.imp_right (Or.imp_right ?_))
    rintro ⟨ho, hd⟩
    simp [State.waiting, hp, ho, hd]
  | nil =>
    cases hc : s.ctx with
    | main => exact absurd (by simpa [State.bank, hc] using hp) (hr hc)
    | irq =>
      have hi : s.irq.ph = [] := by simpa [State.bank, hc] using hp
      left
      cases hq : s.irq.port with
      | nil =>
        rw [seqTurn_of_finished hc hi hq] at h
        cases h
        exact leaveHandler_work hc
      | cons w ws =>
        have hoffer : (s.bank s.ctx).port = w :: ws := by simpa [State.bank, hc] using hq
        cases hd : decode w with
        | command i =>
          rw [seqTurn_accept hp hoffer hd] at h
          exact accept_takeWord_work hc hi hq h
        | invalid r => simp [seqTurn, hp, hoffer, hd] at h

/-- What the turn of the agent that `m` names adds is less than what `m` counted for. -/
theorem agentTurn_work {m : Move} {s t : State} (hr : s.ctx = .main → s.main.ph ≠ []) (h : agentTurn m s = .next t) :
    t.work < s.work + m.work := by
  have hpos := m.work_pos
  cases m with
  | seq =>
    simp only [agentTurn] at h
    split at h
    · cases h; omega
    · have := seqTurn_work hr h
      omega
  | intr tick cmds =>
    cases h
    split
    · exact enterHandler_work s cmds tick
    · omega
  | bus =>
    cases h
    split
    · next hp => exact Nat.lt_add_right _ (completeTransfer_work hp)
    · omega
  | ieWrite v =>
    cases h
    split <;> exact Nat.lt_add_of_pos_right hpos
  | configure | tickWrite => cases h; exact Nat.lt_add_of_pos_right hpos
  | reset => cases h; exact (resetNow_work_le s).trans_lt (Nat.lt_add_of_pos_right hpos)

/-- Every turn uses up work, unless it halts the block, as long as mainline code is not idle and the bus does not hang. -/
theorem turn_work {s t : State} (hr : s.ctx = .main → s.main.ph ≠ []) (hh : s.hung = false) (h : turn s = .next t) :
    t.halt = true ∨ t.work < s.work := by
  cases he : s.env with
  | cons m rest =>
    have hm : agentTurn m { s with env := rest } = .next t := by rw [← h, turn, he]
    have hlt := agentTurn_work (s := { s with env := rest }) hr hm
    have hwork : s.work = State.work { s with env := rest } + m.work := by
      simp only [State.work, he, List.map_cons, List.sum_cons]
      omega
    exact .inr (hwork ▸ hlt)
  | nil =>
    simp only [turn, he] at h
    split_ifs at h with hhalt hbus
    · simp only [Bool.and_eq_true, State.busWillComplete] at hbus
      obtain ⟨-, ⟨hpend, -⟩, -⟩ := hbus
      cases h
      exact .inr (completeTransfer_work hpend)
    · obtain hlt | ⟨-, hstop | hwait⟩ := seqTurn_work hr h
      · exact .inr hlt
      · exact .inl hstop
      · have hwill : s.busWillComplete = true := by simpa [State.hung, he, hwait] using hh
        exact absurd hwill (by simpa [hwait] using hbus)

/-! ### Running an activation to its end -/

theorem State.settled_eq_false {s : State} {c : Ctx} :
    s.settled c = false ↔ s.halt = false ∧ (s.bank c).ph ≠ [] ∧ s.hung = false := by
  simp [State.settled, and_assoc]

/-- While the activation in context `c` goes on, `c` runs or a handler that interrupts it does; a reset ends it
(60_exceptions.md R150, R151). -/
theorem Did.keeps_running {who : Option Move} {s t : State} {c : Ctx} (hd : Did who s t) (hb : (s.bank c).ph ≠ [])
    (hr : s.ctx = c ∨ s.ctx = .irq) : (t.bank c).ph = [] ∨ t.ctx = c ∨ t.ctx = .irq := by
  cases hd with
  | op m rest t by_ ph halt run => exact .inr (runOp_ctx run ▸ hr)
  | accepted i w t by_ idle offer word run =>
    obtain ⟨hctx, -⟩ := accept_switches run
    exact .inr ((hctx.trans s.takeWord_ctx) ▸ hr)
  | returned by_ ctx halt idle port =>
    cases c with
    | main => exact .inr (.inl rfl)
    | irq => exact absurd idle hb
  | entered => exact .inr (.inr rfl)
  | wasReset => left; cases c <;> rfl
  | nothing | completed | configured | ieWritten | tickWritten => exact .inr hr

/-- A turn of an activation settles it, or leaves it going on with less work. -/
theorem turn_settles_or_works {c : Ctx} {s t : State} (hr : s.ctx = c ∨ s.ctx = .irq) (hs : s.settled c = false)
    (h : turn s = .next t) : t.settled c = true ∨ ((t.ctx = c ∨ t.ctx = .irq) ∧ t.work < s.work) := by
  obtain ⟨-, hbusy, hh⟩ := State.settled_eq_false.mp hs
  have hmain : s.ctx = .main → s.main.ph ≠ [] := by
    intro hc
    obtain rfl : s.ctx = c := hr.resolve_right (by simp [hc])
    simpa [State.bank, hc] using hbusy
  obtain hstop | hlt := turn_work hmain hh h
  · exact .inl (by simp [State.settled, hstop])
  · obtain hidle | hrun := (turn_did h).keeps_running (by simpa using hbusy) hr
    · exact .inl (by simp [State.settled, hidle])
    · exact .inr ⟨hrun, hlt⟩

/-- Without work left both contexts are idle. -/
theorem settled_of_work_eq_zero {s : State} (h : s.work = 0) (c : Ctx) : s.settled c = true := by
  have hidle : (s.bank c).ph = [] := by
    simp only [State.work] at h
    cases c <;> exact List.eq_nil_of_length_eq_zero (by simp only [State.bank]; omega)
  simp [State.settled, hidle]

/-- As many turns as there is work settle the activation. -/
theorem drive_settles : ∀ (n : Nat) {c : Ctx} {s t : State}, (s.ctx = c ∨ s.ctx = .irq) → s.work ≤ n →
    drive n c s = .next t → t.settled c = true
  | 0, c, s, _, _, hn, h => by
    cases h
    exact settled_of_work_eq_zero (Nat.le_zero.mp hn) c
  | n + 1, c, s, t, hr, hn, h => by
    rw [drive] at h
    split at h
    · next hs => cases h; exact hs
    · next hs =>
      obtain ⟨u, hu, ht⟩ := Result.andThen_eq_next h
      obtain hset | ⟨hrun, hlt⟩ := turn_settles_or_works hr (by simpa using hs) hu
      · rw [drive_settled hset] at ht
        cases ht
        exact hset
      · exact drive_settles n hrun (by omega) ht

/-- A command's next state is settled: the bound on its turns is never reached (log 16). -/
theorem exec_settles {i : Instr} {s t : State} (h : exec i s = .next t) : t.settled s.ctx = true := by
  rw [exec_eq_runCommand, runCommand] at h
  obtain ⟨u, ha, hd⟩ := Result.andThen_eq_next h
  obtain ⟨hctx, -⟩ := accept_switches ha
  exact hctx ▸ drive_settles u.work (.inl rfl) le_rfl hd

theorem exec_cfg {i : Instr} {s t : State} (h : exec i s = .next t) : t.cfg = s.cfg :=
  exec_keeps (P := fun u => u.cfg = s.cfg) (fun _ _ _ hs ha => (accept_cfg ha).trans hs)
    (fun _ _ hs hu => (turn_cfg hu).trans hs) rfl h

/-- A context held at X3 has a transfer in flight, which a fair bus completes (41_bus_transport.md R103, R106). -/
theorem State.Inv.not_hung {s : State} (h : s.Inv) (hf : s.cfg.busFair = true) (hu : s.cfg.unreadyCompletes = true) :
    s.hung = false := by
  cases hw : s.waiting with
  | false => simp [State.hung, hw]
  | true =>
    simp only [State.waiting, Bool.and_eq_true, Bool.not_eq_true', decide_eq_true_eq] at hw
    obtain ⟨hdone, hx3⟩ := hw
    have hpend : s.xferPending = true := (h.waits s.ctx hx3).resolve_left (by simp [hdone])
    simp [State.hung, State.busWillComplete, hpend, hf, hu]

end Sys2Proof.Machine

namespace Sys2Proof

open Machine

/-- Settles O49: the turn is `State.resetNow`, whose fields are the values named. -/
theorem resetFromAnyState : Obligations.ResetFromAnyState := fun _ _ he =>
  ⟨_, turn_of_reset he, rfl, rfl, rfl, rfl, rfl, rfl, rfl, rfl, rfl, rfl, rfl, rfl, rfl, fun _ => rfl, rfl⟩

/-- Settles O50: with no word to fetch the step is the idle context's own turn. -/
theorem idleBlockDoesNothing : Obligations.IdleBlockDoesNothing := by
  intro s he hh hc hi hp
  have hidle : (s.bank s.ctx).ph = [] := by simpa [State.bank, hc] using hi
  have hs : ({ s with env := s.env.tail } : State) = s := by rw [he, List.tail_nil, ← he]
  have hturn : turn s = .next s := by
    rw [turn_of_idle (.inl he) hh hidle, hs, seqTurn_of_idle_main hc hi hp]
  rw [step, fetch_of_no_word (by simpa [State.bank, hc] using hp)]
  simpa [otherTurn, hidle] using hturn

/-- Settles O53: each turn uses up work, so a command runs until its activation is settled. -/
theorem everyCommandEndsHaltsOrHangs : Obligations.EveryCommandEndsHaltsOrHangs := by
  intro i s t h
  simpa [State.settled, or_assoc] using exec_settles h

/-- Settles O54: of the three ends of a command the invariant and a fair bus leave out the hang. -/
theorem fairBusEndsEveryCommand : Obligations.FairBusEndsEveryCommand := by
  intro i s t hi hf hu h
  have hinv : t.Inv := everyCommandKeepsTheInvariant i s t hi h
  have hcfg := exec_cfg h
  have hhung : t.hung = false := hinv.not_hung (hcfg ▸ hf) (hcfg ▸ hu)
  simpa [hhung] using everyCommandEndsHaltsOrHangs i s t h

end Sys2Proof
end
